-- ==== Sys2Proof/Word.lean ====
section
/-! DEFINITION. The word types: bytes of RAM and registers, and the 16-bit quantities of records (addresses, arguments, tags, counts). -/
namespace Sys2Proof

/-- One byte of RAM or of a register. -/
abbrev Byte := BitVec 8

/-- A 16-bit field: a RAM address, an argument, a tag, a sequence number. -/
abbrev Half := BitVec 16

end Sys2Proof
end

