-- ==== Sys2Proof/Syntax.lean ====
section
/-! DEFINITION. The commands: one constructor of Instr per row of spec/opcode_table.json, in the table's order. The rows give no bits and no fields; the operands are the physical readings and host values that the rules name. -/
namespace Sys2Proof

/-- One access of the host at the host port to the RAM (R137): a byte, or a word of two bytes. -/
inductive RamAccess where
  | readByte (addr : Half)
  | readWord (addr : Half)
  | writeByte (addr : Half) (value : Byte)
  | writeWord (addr : Half) (value : Half)
  deriving DecidableEq, Repr

/-- When the host makes an access (R138, notes/assumptions/42.md): now, between the part's steps; or during the part's next work
of several accesses, having come to the port by the time the work asks for its access number turn, from 0. -/
inductive HostAccess where
  | now (access : RamAccess)
  | during (turn : Nat) (access : RamAccess)
  deriving DecidableEq, Repr

/-- The supply sensors as they read at a stated moment (R63, R74, R89): true is present, false is end. -/
structure Sensors where
  ribbon : Bool
  tape : Bool
  deriving DecidableEq, Repr

/-- The commands of the part, each one step, whole and indivisible (95_what_each_step_holds.md). -/
inductive Instr where
  | resetAssert
  | resetRelease
  | softReset
  | runStart
  | settingsClampedPost
  | runStop
  | wake
  | flush
  | quietSet
  | quietClear
  | rehome
  | eventWrite (value : Byte)
  | eventEnableWrite (value : Byte)
  | anchorPageWrite (value : Byte)
  | hostRamAccess (access : HostAccess)
  | keyRecordFetch
  | recordTake
  | textByteRead
  | heldFullResume
  | linkReread
  | walkStart
  | listPoll
  | convertChar
  | convertTab
  | convertBackspace
  | convertForward
  | convertRelocate
  | convertReturn
  | spellHoldTest
  | lineReleaseCell
  | convertIndex
  | lineClose
  | convertMode
  | convertMargin
  | convertTabset
  | convertWheel
  | convertPause
  | convertMark
  | convertShow
  | convertAddWord
  /-- The tape sensor is read at the start of a walk over non-composed cells (R89). -/
  | convertErase (sensors : Sensors)
  | eraseStep
  /-- The ribbon or tape sensor is read at the taking up (R63). -/
  | operationTakeUp (sensors : Sensors)
  | carriageArrival
  | wheelSeekArrival
  /-- The wheel count at which the index reading disagrees (R65), and where the carriage stands at that moment,
  which matters only when a fourth slip stops its travel (R70). -/
  | wheelSlip (count carriageAt : Nat)
  | settleExpiry
  | strikeSpacingExpiry
  | hammerFire
  | recoveringEnd
  /-- The sensors as they read if the homing found ends in the ribbon test of R74 or the tape test of R63. -/
  | wheelIndexFound (sensors : Sensors)
  /-- Where the carriage stands when motion stops (R70, R83). -/
  | wheelRehomeFail (carriageAt : Nat)
  | carriageHomeFound
  | carriageRehomeFail
  | firstHomingEnd
  /-- The cover switch as sampled (R72: true is open), and, where a change taken stops a motion, where the
  carriage stands and how many half-lines of a FEED have been fed (R73, R74). -/
  | coverSample (isOpen : Bool) (carriageAt fed : Nat)
  | feedComplete
  | pauseExpiry
  | motorRestExpiry
  | wakeFromRest
  /-- How many steps the carriage moves toward the print point in this piece of idle follow (R77). -/
  | idleFollow (steps : Nat)
  | checkBegin
  | verdictDelivery
  | addRequestBegin
  | addRequestEnd
  | noticeWrite
  | noticeTakenReread
  | mirrorTick
  | blinkPhaseChange
  | displayTransferBegin
  | displayTransferComplete
  | messageTimerExpiry
  | toneIntervalExpiry
  | parkMoveEnd
  deriving DecidableEq, Repr

end Sys2Proof
end

