-- ==== Sys2Proof/Config.lean ====
section
/-! DEFINITION. What is fixed for the machine and is no state: the size of the shared RAM and what a byte of it that nothing has written reads as. The spec leaves no result value open, so there is no opaque free value here (INVENTORY.md, 'What the manual leaves open'). -/
namespace Sys2Proof.Config

/-- The shared RAM is 32 KiB, addresses 0x0000 to 0x7FFF (00_scope.md, Conventions). -/
def ramSize : Nat := 32768

/-- What a RAM byte that nothing has written reads as. DESIGN CHOICE (unsafe): the spec gives no contents
after power-on; notes/assumptions/5.md. -/
def ramUnlisted : Byte := 0

end Sys2Proof.Config
end

