-- ==== Sys2Proof/Machine/State.lean ====
section
/-! DEFINITION. The state of the TC41, block by block as 00_scope.md's block table names them, and the state after reset. -/
namespace Sys2Proof.Machine

/-- Why a step stops. Only a host access that the spec says cannot be made stops the model. -/
inductive Fault where
  /-- Raised by HOST_RAM_ACCESS: the address is outside the RAM, 0x0000 to 0x7FFF (00_scope.md). Safe: no effect is claimed. -/
  | addressOutsideRam
  /-- Raised by HOST_RAM_ACCESS: a word access at an odd address, which the port does not make (R137). Safe: no effect is claimed. -/
  | oddWordAddress
  deriving DecidableEq, Repr

/-- Why a command has no meaning. -/
inductive Refusal where
  /-- Raised by an arm of exec whose command has no meaning yet. Safe: nothing can be claimed of it. -/
  | notModelled (mnemonic : String)
  deriving DecidableEq, Repr

/-- The shared RAM: (address, byte) pairs, addresses strictly rising, no byte equal to what an unlisted one reads as. -/
abbrev Memory := List Host.Cell

/-! ### Host Port and Memory Arbiter (HPA) -/

/-- The requesters of the RAM port (R138), in order of rank. -/
inductive Requester where
  | hostPort | ntw | lst | klr | spc | mirror
  deriving DecidableEq, Repr

/-- A host access to the RAM that comes to the port during the part's next work of several accesses, by the time that work
asks for its access number turn, from 0 (R138). -/
structure ComingAccess where
  turn : Nat
  access : RamAccess
  deriving DecidableEq, Repr

/-- HPA: the registers of section 8.5, the RESET pin, the waiting RAM requests, the host's accesses to come and the port's last
answer. -/
structure Hpa where
  /-- RUN in bit 0 and QUIET in bit 3; the action bits are never stored (R139). -/
  command : Byte
  event : Byte
  eventEnable : Byte
  anchorPage : Byte
  /-- The RESET pin is asserted (R156). -/
  resetPin : Bool
  /-- Requests waiting for the RAM port (R138), raised and served within a step: none between steps,
  notes/assumptions/11.md. -/
  portRequests : List Requester
  /-- The host accesses that come among those of the part's next work of several accesses, in the host's order (the model's own,
  R138, notes/assumptions/42.md). -/
  coming : List ComingAccess
  /-- The last answer given to a host read (the model's own record of the port's output). -/
  hostData : Half
  deriving DecidableEq, Repr

/-! ### Key List Reader (KLR) -/

/-- Reader states (R145). -/
inductive ReaderState where
  | stopped | fetch | taking | heldFull | atEnd | bad
  deriving DecidableEq, Repr

/-- Where the walk restarts (R145). -/
inductive Restart where
  | fromHead | fromHeld
  deriving DecidableEq, Repr

/-- The fields latched at a fetch (R146, R48). -/
structure Latched where
  kind : Byte
  code : Byte
  arg : Half
  deriving DecidableEq, Repr

/-- A field of the Settings Record that had to be changed: its index and the value used (R143). -/
structure Clamp where
  index : Nat
  used : Half
  deriving DecidableEq, Repr

/-- KLR (R145, R42, R47, R141, R149). -/
structure Klr where
  state : ReaderState
  current : Half
  held : Option Half
  restart : Restart
  pendingStop : Bool
  latched : Latched
  /-- TEXT offset, made and skipped counts (R47). -/
  offset : Nat
  made : Nat
  skipped : Nat
  /-- The sequence counter (R42). -/
  seq : Half
  keyHead : Option Half
  settingsPtr : Option Half
  /-- A change of RUN from 0 to 1 has been made since the last reset (R141). -/
  ran : Bool
  /-- The reads at RUN are done and the walk is to start (R149). -/
  walkDue : Bool
  /-- A record has been returned and its link is to be re-read (R147). -/
  linkDue : Bool
  /-- The last stop was in BAD, so KeyHead is read anew at the next RUN (R141, R149). -/
  badStop : Bool
  /-- SETTINGS_CLAMPED notices still to be posted, in index order (R143). -/
  clampDue : List Clamp
  deriving DecidableEq, Repr

/-! ### Type-Ahead Queue (TAQ) -/

/-- The seventeen kinds (R43), numbered 1 to 17 in this order. -/
inductive KeyKind where
  | char | text | backspace | erase | ret | tab | index | relocate | mode | margin | tabset | wheel
  | addWord | pause | mark | showText | forward
  deriving DecidableEq, Repr

/-- An action (R41). -/
structure Action where
  kind : KeyKind
  code : Byte
  arg : Half
  origin : Half
  seq : Half
  deriving DecidableEq, Repr

/-! ### Line Store (LST) -/

/-- The blank field of a cell (R1). -/
inductive Blank where
  | no | space | tab
  deriving DecidableEq, Repr

/-- The state of a cell (R2). -/
inductive CellState where
  | composed | queued | printed | liftPending
  deriving DecidableEq, Repr

/-- The spelling mark of a cell (R3). -/
inductive Mark where
  | unmarked | pending | good | miss | skipped
  deriving DecidableEq, Repr

/-- A cell of the current line (R1). -/
structure Cell where
  /-- The identity by which an operation or the open run names its cell (R59, section 6.2): the model's own number. -/
  id : Nat
  code : Byte
  blank : Blank
  petal : Nat
  wheel : Nat
  hammerClass : Nat
  passes : Nat
  fold : Nat
  start : Nat
  fBefore : Nat
  advance : Nat
  fAfter : Nat
  state : CellState
  mark : Mark
  wordNo : Byte
  origin : Half
  reopened : Bool
  deriving DecidableEq, Repr

/-- A point on the line: the step p and the fraction F (00_scope.md, Conventions). -/
structure Point where
  step : Nat
  frac : Nat
  deriving DecidableEq, Repr

/-- The six mode bits (R22, section 8.5). -/
structure ModeBits where
  line : Bool
  justify : Bool
  marginRelease : Bool
  autoReturn : Bool
  spellingOn : Bool
  spellingHold : Bool
  deriving DecidableEq, Repr

/-- The three modes of ERASE (R95 to R97). -/
inductive EraseMode where
  | count | lineStart | word
  deriving DecidableEq, Repr

/-- The phase of a word-mode walk (R97). -/
inductive ErasePhase where
  | blanks | letters
  deriving DecidableEq, Repr

/-- An ERASE walk over non-composed cells in progress (R89 to R97). -/
structure Walk where
  mode : EraseMode
  remaining : Nat
  phase : ErasePhase
  /-- Some step has acted on a cell (R89, R90). -/
  acted : Bool
  deriving DecidableEq, Repr

/-- What LST is doing with the action at the head of TAQ (R6, R50). -/
inductive Conversion where
  /-- No conversion is in progress. -/
  | idle
  /-- A line-mode RETURN in step 1 of R17: its words are ended and it waits. -/
  | spelling
  /-- A line close waits (R20 step 1); begun when it follows a release, so that FLUSH leaves it. -/
  | draining (begun : Bool)
  /-- The composed line is being released (R18, R22); closes when a close follows. -/
  | releasing (closes : Bool)
  /-- An ERASE walk over non-composed cells. -/
  | erasing (walk : Walk)
  deriving DecidableEq, Repr

/-- LST (R4, R14, R20, R22, R56). -/
structure Lst where
  cells : List Cell
  nextId : Nat
  /-- The step p of the print point; ESC holds its fraction. -/
  step : Nat
  cursor : Nat
  composeOrigin : Option Point
  platenTag : Half
  mode : ModeBits
  holdFlag : Bool
  wheelNumber : Nat
  wheelTable : Option Half
  conv : Conversion
  /-- The RAGGED finding kept for the close (R18). -/
  ragged : Bool
  deriving DecidableEq, Repr

/-! ### Escapement Unit (ESC) -/

/-- The pitch selections (R26), numbered 0 to 4. -/
inductive Pitch where
  | p10 | p12 | p15 | custom | ps
  deriving DecidableEq, Repr

/-- ESC (R24). -/
structure Esc where
  pitch : Pitch
  customPitch : Nat
  unitSize : Nat
  lm : Nat
  rm : Nat
  hotZone : Nat
  bellDistance : Nat
  tabs : List Nat
  frac : Nat
  bellFlag : Bool
  deriving DecidableEq, Repr

/-- The settings in force that no block of its own holds (R143). -/
structure Settings where
  lineSpacing : Nat
  energy0 : Nat
  energy1 : Nat
  energy2 : Nat
  energy3 : Nat
  liftBoost : Nat
  restSeconds : Nat
  messageTime : Nat
  deriving DecidableEq, Repr

/-! ### Work List and Print Mechanism (PMC) -/

/-- The twelve mechanism states (R61). -/
inductive MechState where
  | unhomed | homing | ready | moving | striking | recovering | pausing | feeding | resting | parked | held | fault
  deriving DecidableEq, Repr

/-- The fields of an operation (R59). A PRINT or LIFT names its cell by identity. -/
inductive OpBody where
  | print (cell start petal energy : Nat)
  | lift (cell start petal energy passes : Nat)
  | feed (halfLines : Int)
  | pause (ms : Nat)
  | mark (tag origin : Half)
  deriving DecidableEq, Repr

/-- An operation of the Work List: whether it is started (R60), the passes struck (R67), the half-lines fed (R79). -/
structure Operation where
  body : OpBody
  started : Bool
  struck : Nat
  fed : Nat
  deriving DecidableEq, Repr

/-- The last fault reason (R61). -/
inductive FaultReason where
  | none | wheelLost | carriageHome
  deriving DecidableEq, Repr

/-- The homings made in HOMING (R69). -/
inductive HomingKind where
  | close | wake | rehome | first
  deriving DecidableEq, Repr

/-- The part of a homing in progress (R69, R159). -/
inductive HomingPart where
  | carriage
  | wheel
  /-- Part 3 of the first homing, with the step LM as ESC held it when the part began (R161). -/
  | toMargin (target : Nat)
  deriving DecidableEq, Repr

/-- A homing in progress. -/
structure Homing where
  kind : HomingKind
  part : HomingPart
  deriving DecidableEq, Repr

/-- The parked work (R73). -/
inductive ParkedWork where
  | nothing
  | operation
  | homing (kind : HomingKind)
  deriving DecidableEq, Repr

/-- The motors by state (R61). -/
inductive Motors where
  | off | on | carriageOnly | stopped
  deriving DecidableEq, Repr

/-- What is lifted before the hammer (R67, R68). -/
inductive Supply where
  | down | ribbonUp | tapeUp
  deriving DecidableEq, Repr

/-- A hammer fire: the last tick before it, whether it was made on that very tick, and its energy (R66, R67). -/
structure Fire where
  tick : Nat
  onTick : Bool
  energy : Nat
  deriving DecidableEq, Repr

/-- PMC (R61). The hold reason QUIET is the QUIET bit of the Command register (R75). -/
structure Pmc where
  state : MechState
  work : List Operation
  carriage : Option Nat
  wheel : Option Nat
  wheelTrusted : Bool
  platen : Half
  retry : Nat
  lastFire : Option Fire
  ribbonHold : Bool
  parked : Option ParkedWork
  parkMoving : Bool
  faultReason : FaultReason
  strikes : Nat
  lifts : Nat
  coverOpen : Bool
  lastSample : Option Bool
  sensors : Sensors
  motors : Motors
  supply : Supply
  carriageArrived : Bool
  wheelArrived : Bool
  settled : Bool
  homing : Option Homing
  slipHoming : Bool
  everReady : Bool
  pauseFrozen : Bool
  ribbonSteps : Nat
  deriving DecidableEq, Repr

/-! ### Correction Memory (CMM) -/

/-- An entry of the Correction Memory (R85). -/
structure Entry where
  code : Byte
  petal : Nat
  wheel : Nat
  hammerClass : Nat
  passes : Nat
  fold : Nat
  start : Nat
  fBefore : Nat
  advance : Nat
  fAfter : Nat
  origin : Half
  tag : Half
  deriving DecidableEq, Repr

/-! ### Spelling Checker (SPC) -/

/-- A word of the Word Check Queue (R108); its length is the number of its fold values. -/
structure CheckWord where
  number : Byte
  folds : List Nat
  start : Nat
  origin : Half
  tag : Half
  late : Bool
  deriving DecidableEq, Repr

/-- The verdict of a check (R117). -/
inductive Verdict where
  | good | miss
  deriving DecidableEq, Repr

/-- The word in flight: its verdict as the reads of its check gave it, and whether it is discarded (R114). -/
structure Flight where
  word : CheckWord
  verdict : Verdict
  discarded : Bool
  deriving DecidableEq, Repr

/-- What the search of the User Word List found for an add request (R121). -/
inductive SlotFinding where
  | equalSlot
  | emptySlot (slot : Nat)
  | noSlot
  deriving DecidableEq, Repr

/-- An add request (R120), with its finding once it has begun (R121). -/
structure AddRequest where
  folds : List Nat
  origin : Half
  seq : Half
  finding : Option SlotFinding
  deriving DecidableEq, Repr

/-- SPC (section 6.1 to 6.8). -/
structure Spc where
  queue : List CheckWord
  flight : Option Flight
  requests : List AddRequest
  /-- The open run: identities of its cells, in text order (R109). -/
  openRun : List Nat
  lastMiss : Option (List Nat)
  wordCounter : Byte
  unchecked : Nat
  filterBase : Option Half
  filterOrder : Option Byte
  userList : Option Half
  deriving DecidableEq, Repr

/-! ### Display Controller and Tone (DSP) -/

/-- Display attributes (R124). -/
inductive Attr where
  | normal | unstruck | miss | cursor
  deriving DecidableEq, Repr

/-- A cell of the Display Image (R124). -/
structure ImageCell where
  code : Byte
  attr : Attr
  deriving DecidableEq, Repr

/-- The link modes (R132, R133). -/
inductive LinkMode where
  | diff | scan
  deriving DecidableEq, Repr

/-- A display link transfer under way (R132). -/
structure Transfer where
  index : Nat
  content : ImageCell
  deriving DecidableEq, Repr

/-- The tone patterns (R134). -/
inductive Pattern where
  | bell | refuse | miss | fault
  deriving DecidableEq, Repr

/-- A pattern sounding, and the interval of its series it is in (R134). -/
structure Tone where
  pattern : Pattern
  interval : Nat
  deriving DecidableEq, Repr

/-- DSP (chapter 7). -/
structure Dsp where
  image : List ImageCell
  /-- The Sent Image; none is the value unknown (R132). -/
  sent : List (Option ImageCell)
  windowStart : Nat
  blinkOn : Bool
  message : Option (List Byte)
  linkMode : LinkMode
  linkPtr : Nat
  transfer : Option Transfer
  tone : Option Tone
  deriving DecidableEq, Repr

/-! ### Notice Writer (NTW) -/

/-- The notice kinds (section 8.5), numbered 1 to 10. -/
inductive NoticeKind where
  | refused | lineDone | markReached | spellMiss | liftFailed | ribbonEnd | fault | homed | listBad | settingsClamped
  deriving DecidableEq, Repr

/-- A notice, with the fields of the Notice entry (section 8.5). -/
structure Notice where
  kind : NoticeKind
  /-- Bit 7 of the kind byte, in LINE_DONE only. -/
  ragged : Bool
  detail : Byte
  origin : Half
  tag : Half
  position : Half
  deriving DecidableEq, Repr

/-- NTW (R142, R150 to R153). -/
structure Ntw where
  holding : List Notice
  produced : Half
  noticeBase : Option Half
  lastTaken : Option Half
  /-- The ring was found full and NTW waits (R152). -/
  ringWaiting : Bool
  /-- A host write has touched NoticeTaken while NTW waits (R152). -/
  takenTouched : Bool
  mirrorCount : Byte
  /-- For each mirror field in layout order, the value last written, or not yet written (R142, R153). -/
  mirrorLast : List (Option Nat)
  deriving DecidableEq, Repr

/-! ### Time Base (TMB) -/

/-- TMB (R154, R155): ticks since the last reset, and the timers. A running timer holds the ticks left until it runs out, 0 when
it has run out; motor rest holds the ticks counted, the one it was restarted on among them. -/
structure Tmb where
  ticks : Nat
  /-- The present moment is the last tick itself, and not one between it and the next (the model's own, R155,
  notes/assumptions/3.md). -/
  onTick : Bool
  settle : Option Nat
  spacing : Option Nat
  pause : Option Nat
  rest : Option Nat
  message : Option Nat
  tone : Option Nat
  deriving DecidableEq, Repr

/-! ### The whole part -/

structure State where
  hpa : Hpa
  klr : Klr
  taq : List Action
  lst : Lst
  esc : Esc
  settings : Settings
  pmc : Pmc
  cmm : List Entry
  spc : Spc
  dsp : Dsp
  ntw : Ntw
  tmb : Tmb
  ram : Memory
  /-- The commands waiting, first in, first out. -/
  pending : List Instr
  deriving DecidableEq, Repr

/-- The registers after power-on reset (section 8.5), with the RESET pin released (R156). -/
def Hpa.reset : Hpa :=
  { command := 0, event := 0, eventEnable := 0, anchorPage := 0, resetPin := false, portRequests := [], coming := []
    hostData := 0 }

/-- KLR and the intake part after reset (R58, R145). -/
def Klr.reset : Klr :=
  { state := .stopped, current := 0, held := none, restart := .fromHead, pendingStop := false
    latched := { kind := 0, code := 0, arg := 0 }, offset := 0, made := 0, skipped := 0, seq := 0
    keyHead := none, settingsPtr := none, ran := false, walkDue := false, linkDue := false, badStop := false
    clampDue := [] }

/-- The mode bits after reset: DIRECT and everything off (R23). -/
def ModeBits.reset : ModeBits :=
  { line := false, justify := false, marginRelease := false, autoReturn := false, spellingOn := false, spellingHold := false }

/-- LST after reset (R23, R56). -/
def Lst.reset : Lst :=
  { cells := [], nextId := 0, step := 0, cursor := 0, composeOrigin := none, platenTag := 0, mode := ModeBits.reset
    holdFlag := false, wheelNumber := 0, wheelTable := none, conv := .idle, ragged := false }

/-- ESC after reset (R24). -/
def Esc.reset : Esc :=
  { pitch := .p10, customPitch := 384, unitSize := 48, lm := 0, rm := 3359, hotZone := 0, bellDistance := 0
    tabs := [], frac := 0, bellFlag := false }

/-- The settings before the first Settings read. DESIGN CHOICE: notes/assumptions/6.md. -/
def Settings.reset : Settings :=
  { lineSpacing := 1, energy0 := 1, energy1 := 1, energy2 := 1, energy3 := 1, liftBoost := 0, restSeconds := 0, messageTime := 1 }

/-- PMC after reset (R84). -/
def Pmc.reset : Pmc :=
  { state := .unhomed, work := [], carriage := none, wheel := none, wheelTrusted := false, platen := 0, retry := 0
    lastFire := none, ribbonHold := false, parked := none, parkMoving := false, faultReason := .none
    strikes := 0, lifts := 0, coverOpen := false, lastSample := none, sensors := { ribbon := true, tape := true }
    motors := .off, supply := .down, carriageArrived := false, wheelArrived := false, settled := false
    homing := none, slipHoming := false, everReady := false, pauseFrozen := false, ribbonSteps := 0 }

/-- SPC after reset (R123). -/
def Spc.reset : Spc :=
  { queue := [], flight := none, requests := [], openRun := [], lastMiss := none, wordCounter := 0, unchecked := 0
    filterBase := none, filterOrder := none, userList := none }

/-- The Display Image after reset, as R136 spells it out: the cursor entry, blanks, and the status field
D, blank, 0, blank, 001, blank. -/
def resetImage : List ImageCell :=
  { code := 0x20, attr := .cursor } :: List.replicate 31 { code := 0x20, attr := .normal } ++
    [{ code := 0x44, attr := .normal }, { code := 0x20, attr := .normal }, { code := 0x30, attr := .normal },
     { code := 0x20, attr := .normal }, { code := 0x30, attr := .normal }, { code := 0x30, attr := .normal },
     { code := 0x31, attr := .normal }, { code := 0x20, attr := .normal }]

/-- DSP after reset (R136). -/
def Dsp.reset : Dsp :=
  { image := resetImage, sent := List.replicate 40 none, windowStart := 0, blinkOn := true, message := none
    linkMode := .diff, linkPtr := 0, transfer := none, tone := none }

/-- NTW after reset (R153): the seventeen mirror fields not yet written. -/
def Ntw.reset : Ntw :=
  { holding := [], produced := 0, noticeBase := none, lastTaken := none, ringWaiting := false, takenTouched := false
    mirrorCount := 0, mirrorLast := List.replicate 17 none }

/-- TMB after reset: the periods begin and no timer runs (R154, R155); no tick is made at the reset itself
(notes/assumptions/3.md). -/
def Tmb.reset : Tmb :=
  { ticks := 0, onTick := false, settle := none, spacing := none, pause := none, rest := none, message := none, tone := none }

/-- The part right after power-on reset with the RESET pin released (R156), RAM with nothing listed and no
command waiting. -/
def State.reset : State :=
  { hpa := Hpa.reset, klr := Klr.reset, taq := [], lst := Lst.reset, esc := Esc.reset, settings := Settings.reset
    pmc := Pmc.reset, cmm := [], spc := Spc.reset, dsp := Dsp.reset, ntw := Ntw.reset, tmb := Tmb.reset
    ram := [], pending := [] }

end Sys2Proof.Machine
end

