-- ==== Sys2Proof/Machine/Ops.lean ====
section
/-! DEFINITION. The named operations over memory and state that the families share: RAM access, one setter per block, posting a notice, event bits, tones, timers, and the form every step takes. -/
namespace Sys2Proof.Machine

/-! ### Memory: the canonical list -/

/-- The byte at an address; an unlisted one reads as Config.ramUnlisted. -/
def Memory.read : Memory → Nat → Byte
  | [], _ => Config.ramUnlisted
  | (b, w) :: m, a => if a = b then w else Memory.read m a

/-- Put a byte in front, unless it is what an unlisted address reads as. -/
def Memory.put (a : Nat) (v : Byte) (m : Memory) : Memory :=
  if v = Config.ramUnlisted then m else (a, v) :: m

/-- Write one byte and keep the canonical form. -/
def Memory.write (a : Nat) (v : Byte) : Memory → Memory
  | [] => Memory.put a v []
  | (b, w) :: m =>
    if a < b then Memory.put a v ((b, w) :: m)
    else if a = b then Memory.put a v m
    else (b, w) :: Memory.write a v m

/-- The listed addresses rise strictly from lo on. -/
def Memory.rising : Nat → Memory → Bool
  | _, [] => true
  | lo, (b, _) :: m => decide (lo ≤ b) && Memory.rising (b + 1) m

/-- Canonical form: addresses strictly rising and in RAM, no listed byte equal to an unlisted one. -/
def Memory.wf (m : Memory) : Bool :=
  Memory.rising 0 m && m.all (fun c => decide (c.1 < Config.ramSize) && decide (c.2 ≠ Config.ramUnlisted))

/-! ### One setter per block -/

/-- The state with another hpa. -/
def State.withHpa (s : State) (x : Hpa) : State := { s with hpa := x }

/-- The state with another klr. -/
def State.withKlr (s : State) (x : Klr) : State := { s with klr := x }

/-- The state with another taq. -/
def State.withTaq (s : State) (x : List Action) : State := { s with taq := x }

/-- The state with another lst. -/
def State.withLst (s : State) (x : Lst) : State := { s with lst := x }

/-- The state with another esc. -/
def State.withEsc (s : State) (x : Esc) : State := { s with esc := x }

/-- The state with another settings. -/
def State.withSettings (s : State) (x : Settings) : State := { s with settings := x }

/-- The state with another pmc. -/
def State.withPmc (s : State) (x : Pmc) : State := { s with pmc := x }

/-- The state with another cmm. -/
def State.withCmm (s : State) (x : List Entry) : State := { s with cmm := x }

/-- The state with another spc. -/
def State.withSpc (s : State) (x : Spc) : State := { s with spc := x }

/-- The state with another dsp. -/
def State.withDsp (s : State) (x : Dsp) : State := { s with dsp := x }

/-- The state with another ntw. -/
def State.withNtw (s : State) (x : Ntw) : State := { s with ntw := x }

/-- The state with another tmb. -/
def State.withTmb (s : State) (x : Tmb) : State := { s with tmb := x }

/-- The state with another ram. -/
def State.withRam (s : State) (x : Memory) : State := { s with ram := x }

/-- The state with another pending. -/
def State.withPending (s : State) (x : List Instr) : State := { s with pending := x }

/-! ### RAM through the part's port: every address modulo 32768 (R141), low byte first -/

/-- The byte the part reads at an address it forms (R141). -/
def ramByte (s : State) (a : Nat) : Byte := Memory.read s.ram (a % Config.ramSize)

/-- The 16-bit field the part reads at an address it forms (00_scope.md: least significant byte first). DESIGN CHOICE
(notes/assumptions/35.md): at an odd address, which SettingsPtr, WheelTablePtr or NoticeBase may give (R141), it is the byte
there and the byte at the next address. -/
def ramHalf (s : State) (a : Nat) : Half := (ramByte s (a + 1)).append (ramByte s a)

/-- The part writes a byte at an address it forms (R141). -/
def writeByte (a : Nat) (v : Byte) (s : State) : State :=
  s.withRam (Memory.write (a % Config.ramSize) v s.ram)

/-- The part writes a 16-bit field at an address it forms. -/
def writeHalf (a : Nat) (v : Half) (s : State) : State :=
  writeByte (a + 1) (v.extractLsb' 8 8) (writeByte a (v.extractLsb' 0 8) s)

/-- The part writes bytes one after another from an address on. -/
def writeBytes (a : Nat) : List Byte → State → State
  | [], s => s
  | v :: vs, s => writeBytes (a + 1) vs (writeByte a v s)

/-- The Anchor Block begins at (page mod 128) × 256 (R141). -/
def anchorBase (s : State) : Nat := (s.hpa.anchorPage.toNat % 128) * 256

/-! ### The print point: LST's step and ESC's fraction -/

/-- The print point (p, F) (chapter 2). -/
def point (s : State) : Point := { step := s.lst.step, frac := s.esc.frac }

/-- Set the print point: p in LST and F in ESC change together (chapter 2, R31). -/
def setPoint (pt : Point) (s : State) : State :=
  (s.withLst { s.lst with step := pt.step }).withEsc { s.esc with frac := pt.frac }

/-- Replace the cells of the list. -/
def setCells (cs : List Cell) (s : State) : State := s.withLst { s.lst with cells := cs }

/-- Apply a change to the cell of an identity. -/
def updateCell (id : Nat) (f : Cell → Cell) (s : State) : State :=
  setCells (s.lst.cells.map (fun c => if c.id = id then f c else c)) s

/-- The cell of an identity, if LST holds it. -/
def findCell (s : State) (id : Nat) : Option Cell := s.lst.cells.find? (fun c => decide (c.id = id))

/-- The end of a cell: (start + advance, F after) (R1). -/
def Cell.ending (c : Cell) : Point := { step := c.start + c.advance, frac := c.fAfter }

/-- The composed cells, in text order (R4). -/
def composedCells (s : State) : List Cell := s.lst.cells.filter (fun c => decide (c.state = .composed))

/-- The cells in QUEUED, PRINTED or LIFT_PENDING, in list order (R4). -/
def settledCells (s : State) : List Cell := s.lst.cells.filter (fun c => decide (c.state ≠ .composed))

/-- Line mode with composed cells present (R14). -/
def composing (s : State) : Bool := s.lst.mode.line && !(composedCells s).isEmpty

/-- The pair a cell begins at: (start, F before) (R1). -/
def Cell.beginning (c : Cell) : Point := { step := c.start, frac := c.fBefore }

/-- The newest cell ending at a point (R5): searched from the end of the list, in every state except COMPOSED. -/
def newestEnding (cells : List Cell) (pt : Point) : Option Cell :=
  cells.reverse.find? (fun c => decide (c.state ≠ .composed) && decide (c.ending = pt))

/-! ### Notices, tones, the rest timer -/

/-- A producer posts a notice at the back of the Notice Holding Queue (R150). -/
def post (n : Notice) (s : State) : State := s.withNtw { s.ntw with holding := s.ntw.holding ++ [n] }

/-- The intervals of a pattern in ms, sounding and silent by turns (R134). -/
def patternSeries : Pattern → List Nat
  | .bell => [150]
  | .refuse => [60, 40, 60]
  | .miss => [40, 40, 40, 40, 40]
  | .fault => [300, 200, 300, 200, 300, 200]

/-- The frequency of a pattern while sounding, in Hz (R134). -/
def patternHz : Pattern → Nat
  | .bell => 2000
  | .refuse => 500
  | .miss => 1000
  | .fault => 250

/-- The ticks a timer of so many ms runs when it is started now (R155, notes/assumptions/4.md): the first tick at which at
least n ms have passed is the n-th from a start on a tick, and the one after it from a start between two ticks. -/
def startTimer (s : State) (ms : Nat) : Option Nat := some (if s.tmb.onTick then ms else ms + 1)

/-- A timer has run out (R155). -/
def ranOut (t : Option Nat) : Bool := decide (t = some 0)

/-- Start a pattern at the beginning of its series (R134). -/
def startTone (p : Pattern) (s : State) : State :=
  (s.withDsp { s.dsp with tone := some { pattern := p, interval := 0 } }).withTmb
    { s.tmb with tone := (patternSeries p).head?.bind (startTimer s) }

/-- FAULT is sounding, so that any other request is dropped (R135). -/
def faultSounding (s : State) : Bool :=
  match s.dsp.tone with
  | some t => decide (t.pattern = .fault)
  | none => false

/-- A tone request (R135): it starts its pattern, replacing any pattern but FAULT; FAULT replaces FAULT. -/
def requestTone (p : Pattern) (s : State) : State :=
  if faultSounding s && decide (p ≠ .fault) then s else startTone p s

/-- The frequency sounding at the tone output, or none when it is silent (R134): even intervals sound. -/
def toneOutput (s : State) : Option Nat :=
  match s.dsp.tone with
  | some t => if t.interval % 2 = 0 then some (patternHz t.pattern) else none
  | none => none

/-- The ticks the motor rest timer has counted when it begins again from 0 (R78, R155): a start on a tick counts that tick,
the first of its length (notes/assumptions/4.md). -/
def restStart (s : State) : Nat := if s.tmb.onTick then 1 else 0

/-- The motor rest timer begins again from 0 (R78, R155). -/
def restartRest (s : State) : State := s.withTmb { s.tmb with rest := some (restStart s) }

/-! ### The RAM port's order of grant (R138) -/

/-- The rank of a requester in the table of R138, host port first. -/
def Requester.rank : Requester → Nat
  | .hostPort => 0 | .ntw => 1 | .lst => 2 | .klr => 3 | .spc => 4 | .mirror => 5

/-- The requester the arbiter grants when the port is free: the one ranked first (R138). -/
def grantNext : List Requester → Option Requester
  | [] => none
  | r :: rs =>
    match grantNext rs with
    | some q => if r.rank ≤ q.rank then some r else some q
    | none => some r

/-- Waiting requests in the order in which the arbiter grants them (R138), at most so many. -/
def grantOrder : Nat → List Requester → List Requester
  | 0, _ => []
  | n + 1, rs =>
    match grantNext rs with
    | none => []
    | some r => r :: grantOrder n (rs.erase r)

/-- The requests now waiting at the RAM port (R138). -/
def askPort (rs : List Requester) (s : State) : State := s.withHpa { s.hpa with portRequests := rs }

/-- The waiting requests are granted one after another in the order of R138, at most so many: each requester, once
granted, makes its accesses. It asks again for each of them, and outranks at every one those that it outranked at the first, so
that none of them comes between (R138); host accesses that do come between are servedBefore's (Arbiter.lean). -/
def servePort (work : Requester → State → State) : Nat → State → State
  | 0, s => s
  | n + 1, s =>
    match grantNext s.hpa.portRequests with
    | none => s
    | some r => servePort work n (work r (askPort (s.hpa.portRequests.erase r) s))

end Sys2Proof.Machine
end

