-- ==== Sys2Proof/Machine/Operands.lean ====
section
/-! DEFINITION. Operand forms: the codes of section 8.5, how a record's kind is read (R43, R44), and how each kind reads its code and argument, clamping included (R43). -/
namespace Sys2Proof.Machine

/-- The kind a kind byte names, 1 to 17 (R43); any other value names none. -/
def KeyKind.ofByte (b : Byte) : Option KeyKind :=
  match b.toNat with
  | 1 => some .char | 2 => some .text | 3 => some .backspace | 4 => some .erase | 5 => some .ret | 6 => some .tab
  | 7 => some .index | 8 => some .relocate | 9 => some .mode | 10 => some .margin | 11 => some .tabset
  | 12 => some .wheel | 13 => some .addWord | 14 => some .pause | 15 => some .mark | 16 => some .showText
  | 17 => some .forward | _ => none

/-- The mode bits of a MODE code (section 8.5): bit 0 LINE to bit 5 SPELLING HOLD; the other two are not read. -/
def ModeBits.ofByte (b : Byte) : ModeBits :=
  { line := b.getLsbD 0, justify := b.getLsbD 1, marginRelease := b.getLsbD 2, autoReturn := b.getLsbD 3
    spellingOn := b.getLsbD 4, spellingHold := b.getLsbD 5 }

/-- The ModeBits field of the mirror (section 8.5). -/
def ModeBits.toNat (m : ModeBits) : Nat :=
  m.line.toNat + 2 * m.justify.toNat + 4 * m.marginRelease.toNat + 8 * m.autoReturn.toNat +
    16 * m.spellingOn.toNat + 32 * m.spellingHold.toNat

/-- The pitch selection of a MODE argument or a settings byte, 0 to 4 (R26); any other value names none. -/
def Pitch.ofNat? : Nat → Option Pitch
  | 0 => some .p10 | 1 => some .p12 | 2 => some .p15 | 3 => some .custom | 4 => some .ps | _ => none

/-- The PitchSelection field of the mirror (section 8.5). -/
def Pitch.toNat : Pitch → Nat
  | .p10 => 0 | .p12 => 1 | .p15 => 2 | .custom => 3 | .ps => 4

/-- MechState codes (section 8.5). -/
def MechState.toNat : MechState → Nat
  | .unhomed => 0 | .homing => 1 | .ready => 2 | .moving => 3 | .striking => 4 | .recovering => 5
  | .pausing => 6 | .feeding => 7 | .resting => 8 | .parked => 9 | .held => 10 | .fault => 11

/-- FaultReason codes (section 8.5). -/
def FaultReason.toNat : FaultReason → Nat
  | .none => 0 | .wheelLost => 1 | .carriageHome => 2

/-- ReaderState codes (section 8.5). -/
def ReaderState.toNat : ReaderState → Nat
  | .stopped => 0 | .fetch => 1 | .taking => 2 | .heldFull => 3 | .atEnd => 4 | .bad => 5

/-- Key Record outcomes (section 8.5). -/
inductive RecordOutcome where
  | accepted | badKind | badCode | badLength | badPointer | flushed
  deriving DecidableEq, Repr

/-- Key Record outcome codes (section 8.5). -/
def RecordOutcome.toByte : RecordOutcome → Byte
  | .accepted => 1 | .badKind => 2 | .badCode => 3 | .badLength => 4 | .badPointer => 5 | .flushed => 6

/-- Notice kind codes (section 8.5). -/
def NoticeKind.toByte : NoticeKind → Byte
  | .refused => 1 | .lineDone => 2 | .markReached => 3 | .spellMiss => 4 | .liftFailed => 5 | .ribbonEnd => 6
  | .fault => 7 | .homed => 8 | .listBad => 9 | .settingsClamped => 10

/-- The refusal reasons (R55). -/
inductive Reason where
  | notOnWheel | lineFull | margin | limit | noStop | already | tabsFull | notEmpty | spellHold
  | nothingToErase | wrongWheel | tapeEnd | noWord | listFull
  deriving DecidableEq, Repr

/-- Refusal reason codes (section 8.5). -/
def Reason.toByte : Reason → Byte
  | .notOnWheel => 1 | .lineFull => 2 | .margin => 3 | .limit => 4 | .noStop => 5 | .already => 6 | .tabsFull => 7
  | .notEmpty => 8 | .spellHold => 9 | .nothingToErase => 10 | .wrongWheel => 11 | .tapeEnd => 12 | .noWord => 13
  | .listFull => 14

/-- The reasons for which the REFUSE tone is requested (R55). -/
def Reason.toned : Reason → Bool
  | .margin | .limit | .lineFull | .nothingToErase | .wrongWheel => true
  | .notOnWheel | .noStop | .already | .tabsFull | .notEmpty | .spellHold | .tapeEnd | .noWord | .listFull => false

/-- Display attribute codes (section 8.5). -/
def Attr.toByte : Attr → Byte
  | .normal => 0 | .unstruck => 1 | .miss => 2 | .cursor => 3

/-- The three bytes of a display link transfer (section 8.5). -/
def Transfer.bytes (t : Transfer) : List Byte := [BitVec.ofNat 8 t.index, t.content.code, t.content.attr.toByte]

/-- The low byte of a 16-bit field. -/
def lowByte (v : Half) : Byte := v.extractLsb' 0 8

/-- The high byte of a 16-bit field. -/
def highByte (v : Half) : Byte := v.extractLsb' 8 8

/-- The eight bytes of a Notice entry (section 8.5). -/
def Notice.bytes (n : Notice) : List Byte :=
  [if n.ragged then n.kind.toByte ||| 0x80 else n.kind.toByte, n.detail,
   lowByte n.origin, highByte n.origin, lowByte n.tag, highByte n.tag, lowByte n.position, highByte n.position]

/-- The step count of a position as a 16-bit record field (00_scope.md, Conventions). -/
def half (n : Nat) : Half := BitVec.ofNat 16 n

/-! ### How each kind reads its operands (R43) -/

/-- The count of a BACKSPACE: 0 is taken as 1, above 255 as 255 (R43). -/
def backspaceCount (a : Action) : Nat := if a.arg.toNat = 0 then 1 else min a.arg.toNat 255

/-- The mode of an ERASE: code 1 by word; code 0 by count, or to the line start with argument 0 (R43, R95 to R97). -/
def eraseMode (a : Action) : EraseMode :=
  if a.code = 0 then (if a.arg.toNat = 0 then .lineStart else .count) else .word

/-- The count of a count-mode ERASE, above 255 taken as 255 (R43); 0 in the other modes (R89). -/
def eraseCount (a : Action) : Nat :=
  match eraseMode a with
  | .count => min a.arg.toNat 255
  | .lineStart | .word => 0

/-- The half-lines of an INDEX: two's complement, clamped to −16..+16 (R43, R20). -/
def indexHalfLines (a : Action) : Int := max (-16) (min 16 a.arg.toInt)

/-- The duration of a PAUSE in ms: 10 ms units, 0 taken as 1 and above 6000 as 6000 (R57). -/
def pauseMs (a : Action) : Nat := 10 * max 1 (min a.arg.toNat 6000)

/-- The position a MARGIN names: 0xFFFF stands for the step of the print point (R33). -/
def marginPosition (a : Action) (p : Nat) : Nat := if a.arg = 0xFFFF then p else a.arg.toNat

/-! ### Intake validation (R44) -/

/-- The last address of the text, message or wheel table a record names, or none where R44 checks no pointer. -/
def lastPointed (k : KeyKind) (l : Latched) : Option Nat :=
  match k with
  | .text | .showText => some (l.arg.toNat + l.code.toNat - 1)
  | .wheel => some (l.arg.toNat + 511)
  | .char | .backspace | .erase | .ret | .tab | .index | .relocate | .mode | .margin | .tabset | .addWord
  | .pause | .mark | .forward => none

/-- The code check of R44 (order 2). -/
def codeOk (k : KeyKind) (code : Byte) : Bool :=
  match k with
  | .char => decide (0x20 ≤ code.toNat ∧ code.toNat ≤ 0x7E)
  | .wheel => decide (code.toNat ≤ 7)
  | .erase => decide (code.toNat ≤ 1)
  | .text | .backspace | .ret | .tab | .index | .relocate | .mode | .margin | .tabset | .addWord | .pause
  | .mark | .showText | .forward => true

/-- The length check of R44 (order 3). -/
def lengthOk (k : KeyKind) (code : Byte) : Bool :=
  match k with
  | .text => decide (1 ≤ code.toNat)
  | .showText => decide (1 ≤ code.toNat ∧ code.toNat ≤ 32)
  | .char | .wheel | .erase | .backspace | .ret | .tab | .index | .relocate | .mode | .margin | .tabset
  | .addWord | .pause | .mark | .forward => true

/-- The pointer check of R44 (order 4). -/
def pointerOk (k : KeyKind) (l : Latched) : Bool :=
  match lastPointed k l with
  | some a => decide (a ≤ 0x7FFF)
  | none => true

/-- The checks of R44 in order: the kind of an accepted record, or the outcome of the first check that fails. -/
def validate (l : Latched) : Except RecordOutcome KeyKind :=
  match KeyKind.ofByte l.kind with
  | none => .error .badKind
  | some k =>
    if !codeOk k l.code then .error .badCode
    else if !lengthOk k l.code then .error .badLength
    else if !pointerOk k l then .error .badPointer
    else .ok k

/-- The action a TEXT byte maps to, as kind, code and argument (R46); none for a skipped byte. -/
def textAction (b : Byte) : Option (KeyKind × Byte × Half) :=
  if 0x20 ≤ b.toNat ∧ b.toNat ≤ 0x7E then some (.char, b, 0)
  else if b = 0x0D then some (.ret, 0, 0)
  else if b = 0x09 then some (.tab, 0, 0)
  else if b = 0x08 then some (.backspace, 0, 1)
  else none

end Sys2Proof.Machine
end

