-- ==== Sys2Proof/Machine/Escapement.lean ====
section
/-! DEFINITION. Escapement arithmetic (chapter 2): wheel-table entries, products, advances, the margin, bell and hot-zone tests, tab stops, the recompute of a composed line, justification, and the display column. -/
namespace Sys2Proof.Machine

/-! ### Wheel tables (R144) -/

/-- A wheel-table entry as LST reads it (R144). -/
structure WheelEntry where
  petal : Nat
  width : Nat
  hammerClass : Nat
  passes : Nat
  fold : Nat
  deriving DecidableEq, Repr

/-- The address of the entry for a code: table address plus 4 × code (R144). An unset table address (R56),
which no conversion meets, is read as 0: notes/assumptions/23.md. -/
def wheelEntryAddr (s : State) (code : Byte) : Nat := (s.lst.wheelTable.getD 0).toNat + 4 * code.toNat

/-- The fold value stored for a table byte: 28 to 30 and above 31 are stored as 0 (R105). -/
def storedFold (n : Nat) : Nat := if n ≤ 27 ∨ n = 31 then n else 0

/-- Read the entry for a code in the current wheel table (R144). -/
def wheelEntry (s : State) (code : Byte) : WheelEntry :=
  let a := wheelEntryAddr s code
  let b2 := ramByte s (a + 2)
  { petal := (ramByte s a).toNat, width := (ramByte s (a + 1)).toNat, hammerClass := b2.toNat % 4
    passes := if b2.getLsbD 2 then 2 else 1, fold := storedFold (ramByte s (a + 3)).toNat }

/-! ### Products and advances -/

/-- The fixed product of a pitch selection, or none under PS (R26). -/
def fixedProduct (e : Esc) : Option Nat :=
  match e.pitch with
  | .p10 => some 384
  | .p12 => some 320
  | .p15 => some 256
  | .custom => some e.customPitch
  | .ps => none

/-- The width of a space in units: 0 taken as 4, above 15 taken as 15 (R28). -/
def spaceUnits (w : Nat) : Nat := if w = 0 then 4 else min w 15

/-- The width of a character in units: 0 replaced by the space's width, above 15 taken as 15 (R27). -/
def widthUnits (w spaceWidth : Nat) : Nat := if w = 0 then spaceUnits spaceWidth else min w 15

/-- The space product in the current pitch (R28). -/
def spaceProduct (s : State) : Nat :=
  match fixedProduct s.esc with
  | some n => n
  | none => spaceUnits (wheelEntry s 0x20).width * s.esc.unitSize

/-- The space advance, in whole steps (R28). -/
def spaceAdvance (s : State) : Nat := spaceProduct s / 16

/-- The product of a character in the current pitch (R26, R27). -/
def charProduct (s : State) (code : Byte) : Nat :=
  match fixedProduct s.esc with
  | some n => n
  | none => widthUnits (wheelEntry s code).width (wheelEntry s 0x20).width * s.esc.unitSize

/-- The per-character advance (R29): the cell placed at a point with a product. -/
def placeCell (pt : Point) (product : Nat) (c : Cell) : Cell :=
  { c with start := pt.step, fBefore := pt.frac, advance := (pt.frac + product) / 16, fAfter := (pt.frac + product) % 16 }

/-- The product of a cell that is not a tab cell, recovered from its fields (R1). -/
def Cell.product (c : Cell) : Nat := c.advance * 16 + c.fAfter - c.fBefore

/-- A point in sixteenths of a step. -/
def Point.sixteenths (pt : Point) : Nat := 16 * pt.step + pt.frac

/-- The point of a value in sixteenths. -/
def Point.ofSixteenths (n : Nat) : Point := { step := n / 16, frac := n % 16 }

/-- The first tab stop greater than a step (R30). -/
def nextStop (tabs : List Nat) (p : Nat) : Option Nat := tabs.find? (fun t => decide (p < t))

/-- A tab cell from a point to a stop (R30): the fraction is dropped there. -/
def placeTab (pt : Point) (stop : Nat) (c : Cell) : Cell :=
  { c with start := pt.step, fBefore := pt.frac, advance := stop - pt.step, fAfter := 0 }

/-! ### The right edge (R32) -/

/-- An end (e, f) passes a limit (R32). -/
def passes (pt : Point) (limit : Nat) : Bool := decide (limit < pt.step ∨ (pt.step = limit ∧ 0 < pt.frac))

/-- The limit of the margin test (R32). -/
def rightLimit (e : Esc) (release : Bool) : Nat := if release then 3359 else e.rm

/-- The margin test (R32): the refusal of a proposed end, or none. -/
def marginTest (e : Esc) (release : Bool) (pt : Point) : Option Reason :=
  if passes pt (rightLimit e release) then some (if release then .limit else .margin) else none

/-! ### Bell and hot zone -/

/-- ESC's bell test on the new print point (R34). -/
def bellTest (s : State) : State :=
  if 0 < s.esc.bellDistance ∧ s.esc.bellFlag = false ∧ s.esc.rm - s.esc.bellDistance ≤ s.lst.step then
    requestTone .bell (s.withEsc { s.esc with bellFlag := true })
  else s

/-- The hot-zone test of a space (R35): true is RETURN. -/
def hotZoneReturn (s : State) : Bool :=
  s.lst.mode.autoReturn && decide (0 < s.esc.hotZone) && decide (s.esc.rm - s.esc.hotZone ≤ s.lst.step)

/-! ### Margins and stops -/

/-- ESC after a MARGIN of a side and position (R33); code 0 is the left side. -/
def setMargin (e : Esc) (left : Bool) (position : Nat) : Esc :=
  if left then
    let lm := min position 3119
    { e with lm := lm, rm := if e.rm < lm + 240 then lm + 240 else e.rm }
  else { e with rm := min 3359 (max (e.lm + 240) position) }

/-- Insert a stop in its place in ascending order (R36). -/
def insertStop (p : Nat) : List Nat → List Nat
  | [] => [p]
  | t :: ts => if p < t then p :: t :: ts else t :: insertStop p ts

/-! ### The recompute of a composed line (R15 steps 4 and 5) -/

/-- Lay out composed cells one after another from a point; none when a tab cell finds no stop (NO_STOP). -/
def layOut (tabs : List Nat) : Point → List Cell → Option (List Cell)
  | _, [] => some []
  | pt, c :: cs =>
    let placed := match c.blank with
      | .tab => (nextStop tabs pt.step).map (fun t => placeTab pt t c)
      | .no | .space => some (placeCell pt c.product c)
    match placed with
    | none => none
    | some c' =>
      match layOut tabs c'.ending cs with
      | none => none
      | some cs' => some (c' :: cs')

/-- The end of the last cell, or the origin of an empty line. -/
def lineEnding (origin : Point) (cs : List Cell) : Point :=
  match cs.getLast? with
  | some c => c.ending
  | none => origin

/-- The recompute with its tests (R15 step 5): the cells laid out, or the failing reason. -/
def recompute (e : Esc) (release : Bool) (origin : Point) (cs : List Cell) : Except Reason (List Cell) :=
  match layOut e.tabs origin cs with
  | none => .error .noStop
  | some cs' =>
    match marginTest e release (lineEnding origin cs') with
    | some r => if cs'.isEmpty then .ok cs' else .error r
    | none => .ok cs'

/-- The print point of R14: the end of the composed cell before the cursor, or the compose origin. -/
def cursorPoint (origin : Point) (cs : List Cell) (cursor : Nat) : Point :=
  lineEnding origin (cs.take cursor)

/-! ### Justification (R38, R39) -/

/-- A non-blank cell. -/
def Cell.inked (c : Cell) : Bool := decide (c.blank = .no)

/-- The counted space cells (R38): for each cell, whether it is a space with a non-blank cell before it and after it. -/
def countedSpaces : Bool → List Cell → List Bool
  | _, [] => []
  | seen, c :: cs =>
    (decide (c.blank = .space) && seen && cs.any Cell.inked) :: countedSpaces (seen || c.inked) cs

/-- Widen the counted spaces: the first r gain q + 1 steps, the others q, and what follows moves right (R39). -/
def widen (q : Nat) : Nat → Nat → List Cell → List Bool → List Cell
  | r, shift, c :: cs, b :: bs =>
    if b then
      let gain := if 0 < r then q + 1 else q
      { c with start := c.start + shift, advance := c.advance + gain } :: widen q (r - 1) (shift + gain) cs bs
    else { c with start := c.start + shift } :: widen q r shift cs bs
  | _, _, cs, _ => cs

/-- The line end of R38: the end step of the last composed cell, its F after left out. -/
def lineEndStep (cs : List Cell) : Nat :=
  match cs.getLast? with
  | some c => c.start + c.advance
  | none => 0

/-- Justify composed cells to RM, or none when the line is RAGGED (R38, R39). -/
def justify (rm spaceAdv : Nat) (cs : List Cell) : Option (List Cell) :=
  let counted := countedSpaces false cs
  let n := counted.count true
  let e := rm - lineEndStep cs
  if n = 0 ∨ rm ≤ lineEndStep cs ∨ n * 2 * spaceAdv < e then none
  else some (widen (e / n) (e % n) 0 cs counted)

/-! ### The display column (R40) -/

/-- The column of the print point (R40). -/
def column (s : State) : Nat := if s.lst.step < s.esc.lm then 0 else (s.lst.step - s.esc.lm) / 24 + 1

end Sys2Proof.Machine
end

