-- ==== Sys2Proof/Machine/Flags.lean ====
section
/-! DEFINITION. The bits of the registers: RUN and QUIET, the six event bits, the interrupt line, the stall, and the host's view of the four registers (R139, R140, R150, section 8.5). -/
namespace Sys2Proof.Machine

/-- The six bits of the Event register (R140), bit 0 first. -/
inductive EventBit where
  | notice | listend | fault | cover | hold | homed
  deriving DecidableEq, Repr

/-- The mask of an event bit (section 8.5). -/
def EventBit.mask : EventBit → Byte
  | .notice => 0x01 | .listend => 0x02 | .fault => 0x04 | .cover => 0x08 | .hold => 0x10 | .homed => 0x20

/-- Set an event bit; a bit already set stays set (R140). -/
def setEvent (b : EventBit) (s : State) : State := s.withHpa { s.hpa with event := s.hpa.event ||| b.mask }

/-- An event bit is set. -/
def eventSet (s : State) (b : EventBit) : Bool := decide (s.hpa.event &&& b.mask = b.mask)

/-- The RUN bit (R139). -/
def runOn (s : State) : Bool := s.hpa.command.getLsbD 0

/-- The QUIET bit, which is also the hold reason QUIET (R75, R139). -/
def quietOn (s : State) : Bool := s.hpa.command.getLsbD 3

/-- Write the RUN bit. -/
def setRun (b : Bool) (s : State) : State :=
  s.withHpa { s.hpa with command := if b then s.hpa.command ||| 0x01 else s.hpa.command &&& 0xFE }

/-- Write the QUIET bit. -/
def setQuiet (b : Bool) (s : State) : State :=
  s.withHpa { s.hpa with command := if b then s.hpa.command ||| 0x08 else s.hpa.command &&& 0xF7 }

/-- The part is in stall: the Notice Holding Queue holds 2 or more entries (R150). -/
def stalled (s : State) : Bool := decide (2 ≤ s.ntw.holding.length)

/-- The interrupt line: some bit is set both in Event and in Event Enable (R140); released while the RESET pin
is asserted (R156). -/
def interruptLine (s : State) : Bool := !s.hpa.resetPin && decide (s.hpa.event &&& s.hpa.eventEnable ≠ 0)

/-- What the host reads at a register offset (section 8.5): power-on values while the RESET pin is asserted (R137);
the action bits of Command and the unused bits read 0. -/
def readRegister (s : State) (offset : Nat) : Option Byte :=
  if s.hpa.resetPin then (if offset < 4 then some 0 else none)
  else match offset with
    | 0 => some (s.hpa.command &&& 0x09)
    | 1 => some (s.hpa.event &&& 0x3F)
    | 2 => some (s.hpa.eventEnable &&& 0x3F)
    | 3 => some s.hpa.anchorPage
    | _ => none

/-- A hold reason is present (R75). -/
def holdReason (s : State) : Bool := s.pmc.ribbonHold || quietOn s

end Sys2Proof.Machine
end

