-- ==== Sys2Proof/Machine/Display.lean ====
section
/-! DEFINITION. The Display Image (chapter 7): the visual row, the cursor place, the window follow, the status field, and DSP's recompute of the whole image. -/
namespace Sys2Proof.Machine

/-- A blank image cell. -/
def blankImage : ImageCell := { code := 0x20, attr := .normal }

/-! ### The visual row (R125) -/

/-- Add a cell to a row ordered by start; a cell later in the list takes the place of an earlier one at its start. -/
def rowInsert (c : Cell) : List Cell → List Cell
  | [] => [c]
  | d :: r => if c.start < d.start then c :: d :: r else if c.start = d.start then c :: r else d :: rowInsert c r

/-- The visual row (R125): the newest cell of each start step, ascending. -/
def visualRow (cells : List Cell) : List Cell := cells.foldl (fun r c => rowInsert c r) []

/-- The code and display attribute of an entry that is not the cursor place (R127). -/
def entryImage (blinkOn : Bool) (c : Cell) : ImageCell :=
  if c.mark = .miss then { code := if blinkOn then c.code else 0x20, attr := .miss }
  else if c.state = .queued ∨ c.state = .liftPending then { code := c.code, attr := .unstruck }
  else { code := c.code, attr := .normal }

/-- The cursor index (R126): how many entries start before the print point. -/
def cursorIndex (row : List Cell) (p : Nat) : Nat := (row.takeWhile (fun c => decide (c.start < p))).length

/-- The part of the row from the cursor place on (R126): the entry at p takes CURSOR, or a cursor entry is inserted. -/
def cursorTail (blinkOn : Bool) (p : Nat) : List Cell → List ImageCell
  | [] => [{ code := 0x20, attr := .cursor }]
  | c :: cs =>
    if c.start = p then { code := c.code, attr := .cursor } :: cs.map (entryImage blinkOn)
    else { code := 0x20, attr := .cursor } :: (c :: cs).map (entryImage blinkOn)

/-- The row with its cursor place, as image cells (R126, R127). -/
def rowImage (blinkOn : Bool) (row : List Cell) (p : Nat) : List ImageCell :=
  (row.takeWhile (fun c => decide (c.start < p))).map (entryImage blinkOn) ++
    cursorTail blinkOn p (row.dropWhile (fun c => decide (c.start < p)))

/-! ### The window (R128) -/

/-- Step 1 of the window follow; the first argument bounds the repetitions. -/
def windowBack (index : Nat) : Nat → Nat → Nat
  | 0, w => w
  | n + 1, w => if index < w + 2 ∧ 0 < w then windowBack index n (w - 8) else w

/-- Step 2 of the window follow; the first argument bounds the repetitions. -/
def windowAhead (index : Nat) : Nat → Nat → Nat
  | 0, w => w
  | n + 1, w => if w + 29 < index then windowAhead index n (w + 8) else w

/-- The window follow (R128). -/
def windowFollow (index w : Nat) : Nat := windowAhead index index (windowBack index w w)

/-- The 32 cells of the text window: the row from the window start on, blanks where it has no entry (R128). -/
def windowCells (row : List ImageCell) (w : Nat) : List ImageCell :=
  ((row.drop w).take 32) ++ List.replicate (32 - ((row.drop w).take 32).length) blankImage

/-! ### The status field (R129) -/

/-- A decimal digit's code. -/
def digitCode (n : Nat) : Byte := BitVec.ofNat 8 (0x30 + n % 10)

/-- The pitch letter (R129). -/
def pitchLetter : Pitch → Byte
  | .p10 => 0x30 | .p12 => 0x32 | .p15 => 0x35 | .custom => 0x43 | .ps => 0x50

/-- The alert mark (R129). -/
def alertMark (s : State) : Byte :=
  if s.pmc.state = .held ∨ s.pmc.state = .parked ∨ s.pmc.state = .fault then 0x21
  else if s.spc.lastMiss.isSome then 0x3F
  else 0x20

/-- The codes of cells 32 to 39 (R129). -/
def statusCodes (s : State) : List Byte :=
  [if s.lst.mode.line then 0x4C else 0x44, if s.lst.mode.justify then 0x4A else 0x20, pitchLetter s.esc.pitch, 0x20,
   digitCode (column s / 100), digitCode (column s / 10), digitCode (column s), alertMark s]

/-! ### The recompute (R124) -/

/-- Cells 0 to 31: the message while one is shown, else the text window (R128, R130). -/
def textCells (s : State) : List ImageCell :=
  match s.dsp.message with
  | some codes => codes.map (fun b => { code := b, attr := .normal })
  | none => windowCells (rowImage s.dsp.blinkOn (visualRow s.lst.cells) s.lst.step) s.dsp.windowStart

/-- The Display Image as the sources stand (R124). -/
def imageOf (s : State) : List ImageCell := textCells s ++ (statusCodes s).map (fun b => { code := b, attr := .normal })

/-- The window start that the window follow gives (R128). -/
def windowOf (s : State) : Nat := windowFollow (cursorIndex (visualRow s.lst.cells) s.lst.step) s.dsp.windowStart

/-- DSP recomputes: the window follow, then the whole image (R124, R128). -/
def refresh (s : State) : State :=
  let s' := s.withDsp { s.dsp with windowStart := windowOf s }
  s'.withDsp { s'.dsp with image := imageOf s' }

/-! ### The form of a step -/

/-- A step of the part: when it is ready and the RESET pin is not asserted, its effect followed by DSP's recompute;
otherwise nothing changes (R156, notes/assumptions/2.md). -/
def transition (s : State) (ready : Bool) (after : State → State) : Host.Outcome State Fault Refusal :=
  if !s.hpa.resetPin && ready then .next (refresh (after s)) else .next s

end Sys2Proof.Machine
end

