-- ==== Sys2Proof/WellFormed.lean ====
section
/-! DEFINITION. Which commands are well formed: host accesses name RAM that exists, word accesses are at even addresses (R137), and the physical readings lie within the ranges of 00_scope.md (Conventions). -/
namespace Sys2Proof

/-- The address lies in the shared RAM (00_scope.md: 0x0000 to 0x7FFF). -/
def RamAccess.inRam (addr : Half) : Bool := decide (addr.toNat < Config.ramSize)

/-- A word access is at an even address (R137). -/
def RamAccess.even (addr : Half) : Bool := decide (addr.toNat % 2 = 0)

/-- An access the host port makes (R137). -/
def RamAccess.wellFormed : RamAccess → Bool
  | .readByte a => RamAccess.inRam a
  | .readWord a => RamAccess.inRam a && RamAccess.even a
  | .writeByte a _ => RamAccess.inRam a
  | .writeWord a _ => RamAccess.inRam a && RamAccess.even a

/-- The RAM access that a host access is, whenever it is made. -/
def HostAccess.ram : HostAccess → RamAccess
  | .now x => x
  | .during _ x => x

/-- A carriage position is a step from 0 to 3359 (00_scope.md, Conventions). -/
def carriageStepOk (n : Nat) : Bool := decide (n ≤ 3359)

/-- A wheel count is a petal from 0 to 95 (00_scope.md, Conventions). -/
def wheelCountOk (n : Nat) : Bool := decide (n ≤ 95)

/-- Half-lines already fed by a FEED of at most 16 (R59). -/
def halfLinesOk (n : Nat) : Bool := decide (n ≤ 16)

/-- Well-formed commands. -/
def Instr.wellFormed : Instr → Bool
  | .hostRamAccess access => access.ram.wellFormed
  | .wheelSlip count carriageAt => wheelCountOk count && carriageStepOk carriageAt
  | .wheelRehomeFail carriageAt => carriageStepOk carriageAt
  | .coverSample _ carriageAt fed => carriageStepOk carriageAt && halfLinesOk fed
  | .idleFollow steps => carriageStepOk steps
  | .resetAssert | .resetRelease | .softReset | .runStart | .settingsClampedPost | .runStop | .wake | .flush
  | .quietSet | .quietClear | .rehome | .eventWrite _ | .eventEnableWrite _ | .anchorPageWrite _
  | .keyRecordFetch | .recordTake | .textByteRead | .heldFullResume | .linkReread | .walkStart | .listPoll
  | .convertChar | .convertTab | .convertBackspace | .convertForward | .convertRelocate | .convertReturn
  | .spellHoldTest | .lineReleaseCell | .convertIndex | .lineClose | .convertMode | .convertMargin
  | .convertTabset | .convertWheel | .convertPause | .convertMark | .convertShow | .convertAddWord
  | .convertErase _ | .eraseStep | .operationTakeUp _ | .carriageArrival | .wheelSeekArrival | .settleExpiry
  | .strikeSpacingExpiry | .hammerFire | .recoveringEnd | .wheelIndexFound _ | .carriageHomeFound
  | .carriageRehomeFail | .firstHomingEnd | .feedComplete | .pauseExpiry | .motorRestExpiry | .wakeFromRest
  | .checkBegin | .verdictDelivery | .addRequestBegin | .addRequestEnd | .noticeWrite | .noticeTakenReread
  | .mirrorTick | .blinkPhaseChange | .displayTransferBegin | .displayTransferComplete | .messageTimerExpiry
  | .toneIntervalExpiry | .parkMoveEnd => true

end Sys2Proof
end

