-- ==== Sys2Proof/Machine/Arbiter.lean ====
section
/-! DEFINITION. The host's accesses at the RAM port, and how they fall among the accesses of a block that makes several for one piece of work (R137, R138). -/
namespace Sys2Proof.Machine

/-! ### RAM accesses of the host (R137) -/

/-- A host write at an address touches either byte of NoticeTaken (R152). -/
def touchesTaken (s : State) (a width : Nat) : Bool :=
  decide (a < anchorBase s + 18 ∧ anchorBase s + 16 < a + width)

/-- NTW sees a host write of NoticeTaken while it waits for a full ring (R152). -/
def noteTouched (a width : Nat) (s : State) : State :=
  if s.ntw.ringWaiting && touchesTaken s a width then s.withNtw { s.ntw with takenTouched := true } else s

/-- The effect of an access the port makes (R137): it is served even while the RESET pin is asserted. -/
def hostAccess (x : RamAccess) (s : State) : State :=
  match x with
  | .readByte a => s.withHpa { s.hpa with hostData := (ramByte s a.toNat).zeroExtend 16 }
  | .readWord a => s.withHpa { s.hpa with hostData := ramHalf s a.toNat }
  | .writeByte a v => noteTouched a.toNat 1 (writeByte a.toNat v s)
  | .writeWord a v => noteTouched a.toNat 2 (writeHalf a.toNat v s)

/-- The address of an access. -/
def accessAddr : RamAccess → Half
  | .readByte a => a
  | .readWord a => a
  | .writeByte a _ => a
  | .writeWord a _ => a

/-- The access moves a word (R137). -/
def isWordAccess : RamAccess → Bool
  | .readWord _ => true
  | .writeWord _ _ => true
  | .readByte _ => false
  | .writeByte _ _ => false

/-! ### The host's accesses among a block's own (R138) -/

/-- An access that has come to the host port is made; what is no access of the port is none (notes/assumptions/42.md). -/
def makeAccess (x : RamAccess) (s : State) : State := if x.wellFormed then hostAccess x s else s

/-- What the host has waiting at the port is made before a block's next access: the arbiter grants the host each time both ask
(R138). -/
def servedBefore (r : Requester) : List RamAccess → State → State
  | [], s => s
  | x :: xs, s =>
    match grantNext [.hostPort, r] with
    | some .hostPort => servedBefore r xs (makeAccess x s)
    | _ => s

/-- The host accesses that have come to the port by the time a work asks for its access number n. -/
def comeBy (n : Nat) (coming : List ComingAccess) : List RamAccess :=
  (coming.takeWhile (fun c => decide (c.turn ≤ n))).map ComingAccess.access

/-- The host accesses made before a work's access number n are not made again. -/
def dropCome (n : Nat) (s : State) : State :=
  s.withHpa { s.hpa with coming := s.hpa.coming.dropWhile (fun c => decide (c.turn ≤ n)) }

/-- What a work's access number n finds: the host accesses that came before it have been made (R138). -/
def atAccess (r : Requester) (s : State) (n : Nat) : State := servedBefore r (comeBy n s.hpa.coming) s

/-- A work has ended, and every host access that came with it has been made. -/
def afterTraffic (r : Requester) (s : State) : State :=
  servedBefore r (s.hpa.coming.map ComingAccess.access) (s.withHpa { s.hpa with coming := [] })

/-! ### The hold of a fetch (R137) -/

/-- A host access writes one of the eight bytes of the record at an address. -/
def writesRecord (record : Nat) : RamAccess → Bool
  | .readByte _ => false
  | .readWord _ => false
  | .writeByte a _ => (List.range 8).any (fun i => decide (a.toNat = (record + i) % Config.ramSize))
  | .writeWord a _ =>
    (List.range 8).any (fun i => decide (a.toNat = (record + i) % Config.ramSize ∨ a.toNat + 1 = (record + i) % Config.ramSize))

/-- The host accesses made by a fetch's access number n, 0 to 2: those that came before the first read, and after it those up to
the first that writes the record, which is held to the last read (R137), and behind it all that the host would make later. -/
def comeByFetch (record n : Nat) (coming : List ComingAccess) : List RamAccess :=
  comeBy 0 coming ++ ((coming.dropWhile (fun c => decide (c.turn ≤ 0))).takeWhile
    (fun c => decide (c.turn ≤ n) && !writesRecord record c.access)).map ComingAccess.access

/-- What a fetch's access number n finds, 0 to 2 (R137, R138). -/
def atFetch (record : Nat) (s : State) (n : Nat) : State := servedBefore .klr (comeByFetch record n s.hpa.coming) s

/-! ### Words as they were read one by one (R144) -/

/-- A state whose RAM holds, at each of the addresses, the word that a block's accesses from number n on have found there. -/
def asRead (look : Nat → State) : Nat → List Nat → State → State
  | _, [], s => s
  | n, a :: rest, s => asRead look (n + 1) rest (writeHalf a (ramHalf (look n) a) s)

end Sys2Proof.Machine
end

