-- ==== Sys2Proof/Machine/Spelling.lean ====
section
/-! DEFINITION. The operations of the Spelling Checker (chapter 6): ending runs, word numbers, reports of made, erased, inserted and removed cells, withdrawal, the filter and User Word List, and the delivery of a verdict. -/
namespace Sys2Proof.Machine

/-- A letter-class cell: fold value 1 to 27 or 31 (R105). -/
def Cell.letter (c : Cell) : Bool := decide (c.fold ≠ 0)

/-- A cell with the mark NONE. -/
def Cell.unmarked (c : Cell) : Bool := decide (c.mark = .unmarked)

/-! ### Word numbers (R107) -/

/-- A word number is in use: by a marked cell, a queued word or the word in flight (R107). -/
def numberInUse (s : State) (n : Byte) : Bool :=
  s.lst.cells.any (fun c => !c.unmarked && decide (c.wordNo = n)) ||
  s.spc.queue.any (fun w => decide (w.number = n)) ||
  (match s.spc.flight with
   | some f => decide (f.word.number = n)
   | none => false)

/-- Step a number on until it is not in use, at most so many times. -/
def nextFree (used : Byte → Bool) : Nat → Byte → Byte
  | 0, n => n
  | k + 1, n => if used n then nextFree used k (n + 1) else n

/-- A fresh word number: the counter increased until it holds a number not in use (R107). -/
def freshNumber (s : State) : Byte := nextFree (numberInUse s) 255 (s.spc.wordCounter + 1)

/-! ### Ending a run (R106) -/

/-- Set aside the inner marks at the front and back of a run (R106 step 1). -/
def trimInner (run : List Cell) : List Cell :=
  ((run.dropWhile (fun c => decide (c.fold = 27))).reverse.dropWhile (fun c => decide (c.fold = 27))).reverse

/-- The mark a word is given when its run is ended, and whether it found the queue full (R106 step 4). -/
def classify (word : List Cell) (queued : Nat) : Mark × Bool :=
  if word.any (fun c => decide (c.fold = 31)) then (.skipped, false)
  else if word.length = 1 then (.good, false)
  else if 24 < word.length then (.skipped, false)
  else if 4 ≤ queued then (.skipped, true)
  else (.pending, false)

/-- Give a mark and word number to the cells of the identities. -/
def markCells (ids : List Nat) (m : Mark) (n : Byte) (s : State) : State :=
  setCells (s.lst.cells.map (fun c => if c.id ∈ ids then { c with mark := m, wordNo := n } else c)) s

/-- End a run as a word (R106): trimmed, numbered, classified, marked, and queued when PENDING. -/
def endRun (run : List Cell) (s : State) : State :=
  match trimInner run with
  | [] => s
  | first :: rest =>
    let word := first :: rest
    let n := freshNumber s
    let (mark, full) := classify word s.spc.queue.length
    let entry : CheckWord :=
      { number := n, folds := word.map Cell.fold, start := first.start, origin := first.origin
        tag := s.lst.platenTag, late := false }
    let spc' := { s.spc with
      wordCounter := n
      unchecked := if full then min 65535 (s.spc.unchecked + 1) else s.spc.unchecked
      queue := if mark = .pending then s.spc.queue ++ [entry] else s.spc.queue }
    markCells (word.map Cell.id) mark n (s.withSpc spc')

/-- Set the open run (R109). -/
def setOpenRun (ids : List Nat) (s : State) : State := s.withSpc { s.spc with openRun := ids }

/-- End the open run as a word, if it holds cells; it becomes empty (R109, R113, R119). -/
def endOpenRun (s : State) : State := setOpenRun [] (endRun (s.spc.openRun.filterMap (findCell s)) s)

/-! ### Withdrawal (R114) -/

/-- Withdraw the word of a number (R114): off the queue, discarded in flight, its cells marked NONE. -/
def withdraw (n : Byte) (s : State) : State :=
  let spc' := { s.spc with
    queue := s.spc.queue.filter (fun w => decide (w.number ≠ n))
    flight := s.spc.flight.map (fun f => if f.word.number = n then { f with discarded := true } else f) }
  setCells (s.lst.cells.map (fun c => if c.wordNo = n then { c with mark := .unmarked } else c)) (s.withSpc spc')

/-- Withdraw every word that has a marked cell among the cells given. -/
def withdrawAll (cs : List Cell) (s : State) : State :=
  cs.foldl (fun t c => if c.unmarked then t else withdraw c.wordNo t) s

/-! ### Reports from LST among non-composed cells -/

/-- The cells a search back from a point gathers, in text order (R109 step 2): the newest cell ending there,
passing over LIFT_PENDING cells, for as long as it is letter-class and not reopened. -/
def gatherBack (cells : List Cell) : Nat → Point → List Cell
  | 0, _ => []
  | n + 1, pt =>
    match newestEnding (cells.filter (fun c => decide (c.state ≠ .liftPending))) pt with
    | some c => if c.letter && !c.reopened then gatherBack cells n c.beginning ++ [c] else []
    | none => []

/-- R109 step 1: the open run holds cells and the new cell does not begin where its last cell ends. -/
def openRunBroken (s : State) (c : Cell) : Bool :=
  match s.spc.openRun.getLast? with
  | some id => decide ((findCell s id).map Cell.ending ≠ some c.beginning)
  | none => false

/-- A cell made in direct mode is reported to SPC (R109). -/
def reportMade (c : Cell) (s : State) : State :=
  if s.lst.mode.spellingOn = false then s
  else
    let s1 :=
      if openRunBroken s c then endOpenRun s
      else if s.spc.openRun.isEmpty then
        let found := gatherBack s.lst.cells s.lst.cells.length c.beginning
        setOpenRun (found.map Cell.id) (withdrawAll found s)
      else s
    if c.letter then setOpenRun (s1.spc.openRun ++ [c.id]) s1 else endOpenRun s1

/-- A step of the ERASE walk reports its cell as erased (R110). -/
def reportErased (c : Cell) (s : State) : State :=
  let s1 := setOpenRun (s.spc.openRun.takeWhile (fun id => decide (id ≠ c.id))) s
  if c.unmarked then s1 else withdraw c.wordNo s1

/-! ### Runs among composed cells (R111, R112, R113) -/

/-- The letter-class cells just before place i, in text order. -/
def runBefore (cs : List Cell) (i : Nat) : List Cell := ((cs.take i).reverse.takeWhile Cell.letter).reverse

/-- The letter-class cells from place i on. -/
def runFrom (cs : List Cell) (i : Nat) : List Cell := (cs.drop i).takeWhile Cell.letter

/-- A composed cell has been inserted at place k of the composed cells (R111). -/
def reportInserted (k : Nat) (c : Cell) (s : State) : State :=
  if s.lst.mode.spellingOn = false then s
  else
    let cs := composedCells s
    let before := runBefore cs k
    let after := runFrom cs (k + 1)
    if c.letter then withdrawAll (before ++ after) s
    else
      let s1 := if before.isEmpty || after.isEmpty then s else withdrawAll (before ++ after) s
      let run := runBefore (composedCells s1) k
      if run.all Cell.unmarked then endRun run s1 else s1

/-- The composed cell at place i is about to be removed by a line-mode ERASE (R112). DESIGN CHOICE (notes/assumptions/44.md): with
SPELLING ON off the removal is not reported and withdraws nothing, whatever mark the cell carries. -/
def reportRemoved (i : Nat) (c : Cell) (s : State) : State :=
  if s.lst.mode.spellingOn = false then s
  else
    let cs := composedCells s
    let before := runBefore cs i
    let after := runFrom cs (i + 1)
    if c.letter then withdrawAll (before ++ c :: after) s
    else if before.isEmpty || after.isEmpty then s
    else withdrawAll (before ++ after) s

/-- The runs of letter-class cells of a line, in text order. -/
def letterRuns : List Cell → List (List Cell)
  | [] => []
  | c :: cs =>
    if c.letter then
      match cs.head?.map Cell.letter, letterRuns cs with
      | some true, r :: rs => (c :: r) :: rs
      | _, rs => [c] :: rs
    else letterRuns cs

/-- The runs whose cells all carry the mark NONE. -/
def unmarkedRuns (cs : List Cell) : List (List Cell) := (letterRuns cs).filter (fun r => r.all Cell.unmarked)

/-- Step 1 of a line-mode RETURN: the unmarked composed runs are ended in text order, then the open run (R113). -/
def endLineRuns (s : State) : State :=
  if s.lst.mode.spellingOn = false then s
  else endOpenRun ((unmarkedRuns (composedCells s)).foldl (fun t r => endRun r t) s)

/-- The last run, when it is unmarked and reaches the last composed cell (R113). -/
def tailRun (cs : List Cell) : List Cell :=
  let r := runBefore cs cs.length
  if r.all Cell.unmarked then r else []

/-- The start of the release of a MODE from LINE to DIRECT (R113): the open run is ended first, then every unmarked
composed run but the last when it reaches the tail's last cell; that run becomes the open run. -/
def endRunsLeavingLine (s : State) : State :=
  if s.lst.mode.spellingOn = false then s
  else
    let s0 := endOpenRun s
    let cs := composedCells s0
    let kept := tailRun cs
    let ended := unmarkedRuns (cs.take (cs.length - kept.length))
    setOpenRun (kept.map Cell.id) (ended.foldl (fun t r => endRun r t) s0)

/-- The SPELLING ON bit takes a new value: turned off the open run is dropped, turned on it begins empty (R105). -/
def spellingChanged (new : Bool) (s : State) : State :=
  if s.lst.mode.spellingOn = new then s else setOpenRun [] s

/-- The line is closing (R119): the open run is ended and every queued word and the word in flight become late. -/
def reportClosing (s : State) : State :=
  let s1 := if s.lst.mode.spellingOn then endOpenRun s else s
  s1.withSpc { s1.spc with
    queue := s1.spc.queue.map (fun w => { w with late := true })
    flight := s1.spc.flight.map (fun f => { f with word := { f.word with late := true } }) }

/-! ### The filter and the User Word List (R116, R117) -/

/-- The hash h of a word (R116 step 1). -/
def wordHash (folds : List Nat) : Nat := folds.foldl (fun h c => (h * 31 + c) % 16777216) 0

/-- The sum of ci × i from a first index on (R116 step 2). -/
def weightFrom : Nat → List Nat → Nat
  | _, [] => 0
  | i, c :: cs => c * i + weightFrom (i + 1) cs

/-- The weight a of a word (R116 step 2). -/
def wordWeight (folds : List Nat) : Nat := weightFrom 1 folds

/-- The step g, made odd (R116 step 3). -/
def probeStep (folds : List Nat) : Nat :=
  let g := ((wordHash folds / 128) ^^^ wordWeight folds) % 65536
  if g % 2 = 0 then g + 1 else g

/-- The filter order k in force, clamped to 10..17 (R116 step 4). -/
def filterOrderOf (b : Byte) : Nat := max 10 (min 17 b.toNat)

/-- Probe i of a word under order k (R116 step 5). -/
def probe (folds : List Nat) (k i : Nat) : Nat := (wordHash folds + i * probeStep folds) % 2 ^ k

/-- The filter bit of a number (R116): bit b mod 8 of the byte at FilterBase + b div 8. -/
def filterBit (s : State) (base : Half) (b : Nat) : Bool := (ramByte s (base.toNat + b / 8)).getLsbD (b % 8)

/-- The probes are tested in turn, up to the first bit that is 0 (R116), each in what its own access finds: whether all were 1,
and the number of the next access. -/
def probeFilter (look : Nat → State) (base : Half) (order : Byte) (folds : List Nat) : List Nat → Nat → Bool × Nat
  | [], n => (true, n)
  | i :: is, n =>
    if filterBit (look n) base (probe folds (filterOrderOf order) i) then probeFilter look base order folds is (n + 1)
    else (false, n + 1)

/-- The address of slot i of the User Word List (R117). -/
def slotAddr (list : Half) (i : Nat) : Nat := list.toNat + 26 * i

/-- The length of slot i, as a state's RAM holds it (R117 step 1). -/
def slotLength (s : State) (list : Half) (i : Nat) : Nat := (ramByte s (slotAddr list i)).toNat

/-- Slot i has the word's length L, so that its fold-value bytes are read (R117 step 2). -/
def slotMatches (s : State) (list : Half) (folds : List Nat) (i : Nat) : Bool :=
  decide (slotLength s list i = folds.length) && decide (folds.length ≤ 24)

/-- The word's fold values stand in slot i, its byte j read at access n + j (R117 step 2). -/
def slotEquals (look : Nat → State) (list : Half) (folds : List Nat) (i n : Nat) : Bool :=
  (folds.zipIdx).all (fun cj => decide ((ramByte (look (n + cj.2)) (slotAddr list i + 1 + cj.2)).toNat = cj.1))

/-- The slots are searched in order from access n on, up to one that is equal to the word (R117), noting the first one whose
length is 0 (R121 step 1). DESIGN CHOICE (notes/assumptions/43.md): each byte is an access of its own. -/
def searchSlots (look : Nat → State) (list : Half) (folds : List Nat) : List Nat → Nat → Option Nat → SlotFinding
  | [], _, some i => .emptySlot i
  | [], _, none => .noSlot
  | i :: is, n, noted =>
    if slotMatches (look n) list folds i then
      if slotEquals look list folds i (n + 1) then .equalSlot
      else searchSlots look list folds is (n + 1 + folds.length) noted
    else
      searchSlots look list folds is (n + 1) (if noted.isNone && slotLength (look n) list i = 0 then some i else noted)

/-- What a search of the whole User Word List finds from access n on (R117, R121 steps 1 to 3). -/
def searchList (look : Nat → State) (list : Half) (folds : List Nat) (n : Nat) : SlotFinding :=
  searchSlots look list folds (List.range 64) n none

/-- The verdict of a check, as its reads give it (R116, R117): the filter first, then the list if the word is not in it. -/
def verdictOf (look : Nat → State) (base : Half) (order : Byte) (list : Half) (folds : List Nat) : Verdict :=
  match probeFilter look base order folds [0, 1, 2] 0 with
  | (true, _) => .good
  | (false, n) => if searchList look list folds n = .equalSlot then .good else .miss

/-- The bytes a word is written with into a slot, from its first fold-value byte to the 24th (R121 step 4). -/
def slotBytes (folds : List Nat) : List Byte :=
  folds.map (BitVec.ofNat 8) ++ List.replicate (24 - folds.length) 0

/-- The slot is written, its length last (R121 step 4). -/
def writeSlot (list : Half) (i : Nat) (folds : List Nat) (s : State) : State :=
  writeByte (slotAddr list i) (BitVec.ofNat 8 folds.length) (writeBytes (slotAddr list i + 1) (slotBytes folds) s)

/-- The fold values of the cells that carry MISS with a word number, in list order (R121 step 5). -/
def missFolds (cells : List Cell) (n : Byte) : List Nat :=
  (cells.filter (fun c => decide (c.mark = .miss ∧ c.wordNo = n))).map Cell.fold

/-- Every MISS word equal to the request's word is re-marked GOOD (R121 step 5). -/
def remarkGood (folds : List Nat) (s : State) : State :=
  setCells (s.lst.cells.map (fun c =>
    if c.mark = .miss ∧ missFolds s.lst.cells c.wordNo = folds then { c with mark := .good } else c)) s

/-! ### Delivery (R118) -/

/-- Write a verdict into every cell PENDING with the word's number (R118, R3). -/
def writeVerdict (n : Byte) (m : Mark) (s : State) : State :=
  setCells (s.lst.cells.map (fun c => if c.mark = .pending ∧ c.wordNo = n then { c with mark := m } else c)) s

/-- The SPELL_MISS notice of a word (R118): the length in bits 0 to 4, LATE in bit 7. -/
def spellMissNotice (w : CheckWord) : Notice :=
  { kind := .spellMiss, ragged := false
    detail := BitVec.ofNat 8 (w.folds.length + if w.late then 128 else 0)
    origin := w.origin, tag := w.tag, position := BitVec.ofNat 16 w.start }

/-- A delivered MISS: the tone, the notice and the Last Miss (R118). -/
def reportMiss (w : CheckWord) (s : State) : State :=
  let s1 := post (spellMissNotice w) (requestTone .miss s)
  s1.withSpc { s1.spc with lastMiss := some w.folds }

/-- The delivery of the verdict for the word in flight (R118), which is discarded if the word was withdrawn (R114). -/
def deliver (f : Flight) (s : State) : State :=
  let s1 := s.withSpc { s.spc with flight := none }
  if f.discarded then s1
  else
    match f.verdict with
    | .good => if f.word.late then s1 else writeVerdict f.word.number .good s1
    | .miss => reportMiss f.word (if f.word.late then s1 else writeVerdict f.word.number .miss s1)

end Sys2Proof.Machine
end

