-- ==== Sys2Proof/Machine/Mechanism.lean ====
section
/-! DEFINITION. The shared operations of the print mechanism (chapter 4): placing and removing operations, reports to LST, seeks and travels, READY, HELD, FAULT, the cover, resumption, and what an action does when it leaves the head of TAQ. -/
namespace Sys2Proof.Machine

/-! ### An action leaves the head of TAQ (R6, R131) -/

/-- A shown message ends: the message state becomes none and the timer stops (R131). -/
def endMessage (s : State) : State :=
  (s.withDsp { s.dsp with message := none }).withTmb { s.tmb with message := none }

/-- The action at the head leaves TAQ: every action other than RETURN clears the hold flag (R6), and a CHAR ends a
shown message (R131). -/
def leaveHead (a : Action) (s : State) : State :=
  let s1 := s.withTaq s.taq.tail
  let s2 := s1.withLst { s1.lst with
    conv := .idle
    holdFlag := if a.kind = .ret then s1.lst.holdFlag else false }
  if a.kind = .char then endMessage s2 else s2

/-- An action carried out in one step leaves the head: the rest timer begins again at its conversion (R78). -/
def finishAction (a : Action) (s : State) : State := leaveHead a (restartRest s)

/-- The REFUSED notice of an action (R55); the line-tag field is given, since WRONG_WHEEL carries the count there. -/
def refusedNotice (r : Reason) (origin seq tag : Half) : Notice :=
  { kind := .refused, ragged := false, detail := r.toByte, origin := origin, tag := tag, position := seq }

/-- Request the REFUSE tone for a toned reason (R55). -/
def refuseTone (r : Reason) (s : State) : State := if r.toned then requestTone .refuse s else s

/-- The action at the head is refused with a reason and a line-tag field (R55, R6). -/
def refuseWith (r : Reason) (tag : Half) (a : Action) (s : State) : State :=
  leaveHead a (refuseTone r (post (refusedNotice r a.origin a.seq tag) s))

/-- The action at the head is refused (R55): the line-tag field is LST's platen tag. -/
def refuse (r : Reason) (a : Action) (s : State) : State := refuseWith r s.lst.platenTag a s

/-! ### The Work List (R59) -/

/-- The Work List has room for one operation (R59). -/
def workHasRoom (s : State) : Bool := decide (s.pmc.work.length < 16)

/-- Place an operation, not started, at the back of the Work List (R59). -/
def placeOp (b : OpBody) (s : State) : State :=
  s.withPmc { s.pmc with work := s.pmc.work ++ [{ body := b, started := false, struck := 0, fed := 0 }] }

/-- Replace the Work List; when it becomes empty the rest timer begins again (R78). -/
def setWork (ops : List Operation) (s : State) : State :=
  let s1 := s.withPmc { s.pmc with work := ops }
  if ops.isEmpty then restartRest s1 else s1

/-- The front operation leaves the Work List (R59). -/
def removeFront (s : State) : State := setWork s.pmc.work.tail s

/-- The front operation. -/
def front (s : State) : Option Operation := s.pmc.work.head?

/-- The fields of the front operation. -/
def frontBody (s : State) : Option OpBody := (front s).map Operation.body

/-- Change the front operation. -/
def updateFront (f : Operation → Operation) (s : State) : State :=
  match s.pmc.work with
  | [] => s
  | o :: os => s.withPmc { s.pmc with work := f o :: os }

/-- The class energy of the settings in force (R59). -/
def classEnergy (g : Settings) (cls : Nat) : Nat :=
  match cls with
  | 0 => g.energy0
  | 1 => g.energy1
  | 2 => g.energy2
  | _ => g.energy3

/-- The PRINT of a cell (R7, R59). -/
def printOf (s : State) (c : Cell) : OpBody := .print c.id c.start c.petal (classEnergy s.settings c.hammerClass)

/-- The LIFT of a cell (R59, R92): the class energy plus the lift boost, taken as 15 above 15. -/
def liftOf (s : State) (c : Cell) : OpBody :=
  .lift c.id c.start c.petal (min 15 (classEnergy s.settings c.hammerClass + s.settings.liftBoost)) c.passes

/-- The cell an operation names. -/
def OpBody.cell? : OpBody → Option Nat
  | .print c _ _ _ => some c
  | .lift c _ _ _ _ => some c
  | .feed _ | .pause _ | .mark _ _ => none

/-- The start and petal of a PRINT or LIFT (R59). -/
def OpBody.goal? : OpBody → Option (Nat × Nat)
  | .print _ st pt _ => some (st, pt)
  | .lift _ st pt _ _ => some (st, pt)
  | .feed _ | .pause _ | .mark _ _ => none

/-- The energy of a PRINT or LIFT (R59). -/
def OpBody.energy : OpBody → Nat
  | .print _ _ _ e => e
  | .lift _ _ _ e _ => e
  | .feed _ | .pause _ | .mark _ _ => 0

/-- The passes of an operation: one for a PRINT, the cell's for a LIFT (R67). -/
def OpBody.passCount : OpBody → Nat
  | .print _ _ _ _ => 1
  | .lift _ _ _ _ n => n
  | .feed _ | .pause _ | .mark _ _ => 0

/-- The origin record of a cell LST holds, for the notices of R83. -/
def cellOrigin (s : State) (id : Nat) : Half :=
  match findCell s id with
  | some c => c.origin
  | none => 0

/-! ### Reports to LST (R13) -/

/-- PRINT complete: a QUEUED cell becomes PRINTED; a LIFT_PENDING cell stays (R13). -/
def reportPrinted (id : Nat) (s : State) : State :=
  updateCell id (fun c => if c.state = .queued then { c with state := .printed } else c) s

/-- LIFT complete: the cell is removed from the list (R13). -/
def reportLifted (id : Nat) (s : State) : State := setCells (s.lst.cells.filter (fun c => decide (c.id ≠ id))) s

/-- LIFT abandoned: the cell returns to PRINTED (R13). -/
def reportAbandoned (id : Nat) (s : State) : State := updateCell id (fun c => { c with state := .printed }) s

/-- An ERASE walk in progress makes no further step and ends without a notice (R99). -/
def stopWalk (s : State) : State :=
  match s.lst.conv, s.taq with
  | .erasing _, a :: _ => leaveHead a s
  | .erasing _, [] => s.withLst { s.lst with conv := .idle }
  | .idle, _ | .spelling, _ | .draining _, _ | .releasing _, _ => s

/-! ### States -/

/-- Enter HELD, which sets the HOLD event bit (R75). -/
def enterHeld (s : State) : State := setEvent .hold (s.withPmc { s.pmc with state := .held })

/-- PMC would be READY: it enters READY, and passes at once to HELD while a hold reason is present (R71, R75, R76, R160). -/
def toReady (s : State) : State :=
  let s1 := s.withPmc { s.pmc with state := .ready, everReady := true, motors := .on, supply := .down }
  if holdReason s1 then enterHeld s1 else s1

/-- Both arrived: the settle timer of 4 ms starts (R66, R155). -/
def startSettle (s : State) : State :=
  if s.pmc.carriageArrived && s.pmc.wheelArrived then s.withTmb { s.tmb with settle := startTimer s 4 } else s

/-- Enter MOVING for the front operation (R64): a travel of 0 steps and a seek of 0 petals end at once. -/
def enterMoving (s : State) : State :=
  match (frontBody s).bind OpBody.goal? with
  | none => s
  | some (st, pt) =>
    startSettle ((s.withPmc { s.pmc with
      state := .moving, motors := .on, supply := .down, homing := none, slipHoming := false, settled := false
      carriageArrived := decide (s.pmc.carriage = some st)
      wheelArrived := s.pmc.wheelTrusted && decide (s.pmc.wheel = some pt) }).withTmb { s.tmb with settle := none })

/-- The strike spacing is satisfied: no fire since reset, or its 30 ms timer has run out (R66, R155). -/
def spacingOver (s : State) : Bool := s.pmc.lastFire.isNone || s.tmb.spacing.isNone

/-- Enter STRIKING (R66, R67): the ribbon is lifted for a PRINT, the tape for a LIFT. -/
def enterStriking (s : State) : State :=
  let lifted : Supply := match frontBody s with
    | some (.lift _ _ _ _ _) => .tapeUp
    | some (.print _ _ _ _) | some (.feed _) | some (.pause _) | some (.mark _ _) | none => .ribbonUp
  s.withPmc { s.pmc with state := .striking, supply := lifted }

/-! ### The seek (R64, R65) -/

/-- d = (petal − wheel count) mod 96 (R64). -/
def seekDistance (count petal : Nat) : Nat := (petal + 96 - count % 96) % 96

/-- The wheel turns clockwise: d is 48 or less (R64). -/
def seekClockwise (count petal : Nat) : Bool := decide (seekDistance count petal ≤ 48)

/-- The petals turned by the shorter way (R64). -/
def seekTurn (count petal : Nat) : Nat :=
  if seekClockwise count petal then seekDistance count petal else 96 - seekDistance count petal

/-- A count the wheel reaches in the course of a seek (R65): after 1 to the whole turn of petals. -/
def onSeekPath (count petal c : Nat) : Bool :=
  let k := if seekClockwise count petal then seekDistance count c else seekDistance c count
  decide (c < 96 ∧ 1 ≤ k ∧ k ≤ seekTurn count petal)

/-! ### Carriage stops -/

/-- The position in a travel nearest to a reading: between where it began and its goal (notes/assumptions/10.md). -/
def between (a b x : Nat) : Nat := max (min a b) (min x (max a b))

/-- Where the carriage is going, if a travel, a carriage part of a homing, the first homing's move to the margin or a park
move is under way (R64, R69, R73, R159). -/
def carriageGoal (s : State) : Option Nat :=
  match s.pmc.state with
  | .moving => if s.pmc.carriageArrived then none else ((frontBody s).bind OpBody.goal?).map Prod.fst
  | .parked => if s.pmc.parkMoving then some 1680 else none
  | .homing =>
    match s.pmc.homing with
    | some { kind := _, part := .carriage } => some 0
    | some { kind := _, part := .toMargin t } => some t
    | some { kind := _, part := .wheel } | none => none
  | .unhomed | .ready | .striking | .recovering | .pausing | .feeding | .resting | .held | .fault => none

/-- The carriage stops where it stands: at the reading, when a motion of it is under way; a position that is not known stays
so (notes/assumptions/10.md). -/
def stopCarriage (reading : Nat) (s : State) : State :=
  match s.pmc.carriage, carriageGoal s with
  | some p, some g => s.withPmc { s.pmc with carriage := some (between p g reading) }
  | _, _ => s

/-! ### FAULT (R70) -/

/-- The origin record of a FAULT notice (R83): of the front operation's cell, or of a MARK. -/
def faultOrigin (s : State) : Half :=
  match frontBody s with
  | some (.print c _ _ _) => cellOrigin s c
  | some (.lift c _ _ _ _) => cellOrigin s c
  | some (.mark _ origin) => origin
  | some (.feed _) | some (.pause _) | none => 0

/-- The detail of a FAULT notice (R83). -/
def faultDetail : FaultReason → Byte
  | .none => 0
  | .wheelLost => 1
  | .carriageHome => 2

/-- The position of a FAULT notice (R83): 0xFFFF when the carriage position is not known. -/
def faultPosition (r : FaultReason) (s : State) : Half :=
  match r, s.pmc.carriage with
  | .wheelLost, some p => half p
  | _, _ => 0xFFFF

/-- Enter FAULT with a reason (R70, R83). -/
def enterFault (r : FaultReason) (s : State) : State :=
  let n : Notice :=
    { kind := .fault, ragged := false, detail := faultDetail r, origin := faultOrigin s, tag := s.pmc.platen
      position := faultPosition r s }
  let s1 := s.withPmc { s.pmc with
    state := .fault, faultReason := r, motors := .stopped, supply := .down, homing := none, slipHoming := false
    parked := none, parkMoving := false, carriage := none, wheelTrusted := false, carriageArrived := false
    wheelArrived := false, settled := false, pauseFrozen := true }
  requestTone .fault (post n (setEvent .fault (s1.withTmb { s1.tmb with settle := none })))

/-! ### The end of an operation (R68, R99) -/

/-- A counter that saturates (R82). -/
def saturate (top n : Nat) : Nat := min top n

/-- The strike counter rises by the passes struck (R82). -/
def countStrikes (n : Nat) (s : State) : State :=
  s.withPmc { s.pmc with strikes := saturate 4294967295 (s.pmc.strikes + n) }

/-- The PRINT or LIFT at the front completes (R68): it leaves the front, is reported, and the counters rise. The
ribbon advances by the cell's advance for a PRINT, except when the cover stops it (R73). -/
def completeStrike (ribbonAdvances : Bool) (s : State) : State :=
  match front s with
  | none => s
  | some o =>
    match o.body with
    | .print c _ _ _ =>
      let steps := match findCell s c with
        | some cell => if ribbonAdvances then cell.advance else 0
        | none => 0
      let s1 := s.withPmc { s.pmc with ribbonSteps := s.pmc.ribbonSteps + steps }
      reportPrinted c (countStrikes o.struck (removeFront s1))
    | .lift c _ _ _ _ =>
      let s1 := countStrikes o.struck (removeFront s)
      reportLifted c (s1.withPmc { s1.pmc with lifts := saturate 65535 (s1.pmc.lifts + 1) })
    | .feed _ | .pause _ | .mark _ _ => s

/-- The LIFT at the front is abandoned at its tape test (R63, R99): it leaves the Work List, its cell returns to
PRINTED, LIFT_FAILED is posted with the passes struck, and an ERASE walk in progress ends. -/
def abandonLift (s : State) : State :=
  match front s with
  | none => s
  | some o =>
    match o.body with
    | .lift c st _ _ _ =>
      let n : Notice :=
        { kind := .liftFailed, ragged := false, detail := BitVec.ofNat 8 o.struck, origin := cellOrigin s c
          tag := s.lst.platenTag, position := half st }
      stopWalk (post n (reportAbandoned c (removeFront s)))
    | .print _ _ _ _ | .feed _ | .pause _ | .mark _ _ => s

/-- Start the front operation (R60). -/
def startFront (s : State) : State := updateFront (fun o => { o with started := true }) s

/-- Remember the sensors as last read. -/
def readSensors (r : Sensors) (s : State) : State := s.withPmc { s.pmc with sensors := r }

/-! ### Taking up (R62, R63) -/

/-- PMC takes up the front operation: the retry count becomes 0 and the operation begins by its kind (R62, R63). -/
def takeUp (o : Operation) (s0 : State) : State :=
  let s := s0.withPmc { s0.pmc with retry := 0 }
  match o.body with
  | .print c st _ _ =>
    if s.pmc.sensors.ribbon then enterMoving (startFront s)
    else
      let n : Notice :=
        { kind := .ribbonEnd, ragged := false, detail := 0, origin := cellOrigin s c, tag := s.lst.platenTag
          position := half st }
      post n (enterHeld (s.withPmc { s.pmc with ribbonHold := true }))
  | .lift _ _ _ _ _ => if s.pmc.sensors.tape then enterMoving (startFront s) else abandonLift s
  | .feed _ => let t := startFront s; t.withPmc { t.pmc with state := .feeding }
  | .pause ms =>
    let t := startFront s
    (t.withPmc { t.pmc with state := .pausing, pauseFrozen := false }).withTmb { t.tmb with pause := startTimer t ms }
  | .mark tag origin =>
    let n : Notice :=
      { kind := .markReached, ragged := false, detail := 0, origin := origin, tag := s.pmc.platen, position := tag }
    removeFront (post n s)

/-- Resumption after a close re-home or a REHOME (R71, R74): a started PRINT or LIFT from MOVING with the passes not
yet struck (a LIFT after its tape test), a FEED, a PAUSE; with nothing to resume, READY. -/
def resume (s : State) : State :=
  match front s with
  | none => toReady s
  | some o =>
    if o.started = false then toReady s
    else
      match o.body with
      | .print _ _ _ _ => enterMoving s
      | .lift _ _ _ _ _ => if s.pmc.sensors.tape then enterMoving s else toReady (abandonLift s)
      | .feed _ => s.withPmc { s.pmc with state := .feeding, motors := .on }
      | .pause _ => s.withPmc { s.pmc with state := .pausing, motors := .on, pauseFrozen := false }
      | .mark _ _ => toReady s

/-! ### Homing (R69) -/

/-- Begin a homing from its first part: the wheel alone after a cover close or a rest, the carriage otherwise (R69). -/
def beginHoming (k : HomingKind) (s : State) : State :=
  let part : HomingPart := match k with
    | .close | .wake => .wheel
    | .rehome | .first => .carriage
  s.withPmc { s.pmc with
    state := .homing, motors := .on, supply := .down, homing := some { kind := k, part := part }
    parked := none, parkMoving := false, wheelTrusted := false }

/-- A HOMED notice (R83, R160). -/
def homedNotice (detail : Byte) (s : State) : Notice :=
  { kind := .homed, ragged := false, detail := detail, origin := 0, tag := s.pmc.platen
    position := half (s.pmc.carriage.getD 0) }

/-- The wheel re-home of a homing in HOMING has succeeded: what follows by the homing's own rule (R69). -/
def homingWheelFound (k : HomingKind) (s : State) : State :=
  let s1 := s.withPmc { s.pmc with homing := none }
  match k with
  | .close =>
    -- R74 steps 3 to 5
    if s1.pmc.sensors.ribbon then resume (s1.withPmc { s1.pmc with ribbonHold := false })
    else enterHeld (s1.withPmc { s1.pmc with ribbonHold := true })
  | .wake => toReady s1
  | .rehome => resume (post (homedNotice 1 s1) (setEvent .homed s1))
  | .first => s1.withPmc { s1.pmc with homing := some { kind := .first, part := .toMargin s1.esc.lm } }

/-! ### The cover (R73, R74) -/

/-- The motors in PARKED (R61): the carriage motor alone for a park move. DESIGN CHOICE (notes/assumptions/33.md): it stays on once
the park move has ended, and where the carriage already stands at step 1680; all are off where R73 and R158 rule a park move out,
which is after an interrupted homing and at a first RUN over an open cover. -/
def parkMotors : ParkedWork → Motors
  | .homing _ => .off
  | .nothing | .operation => .carriageOnly

/-- Keep the parked work and move to the park position, unless a homing was interrupted (R73). The time of a PAUSE that
stands in the REHOME homing goes on standing in a PARKED entered from there: DEDUCED, notes/assumptions/26.md. The wheel count of a
seek stopped midway stays the one from before the seek, not trusted: DESIGN CHOICE, notes/assumptions/41.md. -/
def park (w : ParkedWork) (s : State) : State :=
  let moves : Bool := match w with
    | .homing _ => false
    | .nothing | .operation => decide (s.pmc.carriage ≠ some 1680)
  (s.withPmc { s.pmc with
    state := .parked, parked := some w, parkMoving := moves, motors := parkMotors w, supply := .down, homing := none
    slipHoming := false, carriageArrived := false, wheelArrived := false, settled := false, wheelTrusted := false }).withTmb
      { s.tmb with settle := none }

/-- The front operation has all its passes struck. -/
def allPassesDone (s : State) : Bool :=
  match front s with
  | some o => decide (0 < o.body.passCount ∧ o.body.passCount ≤ o.struck)
  | none => false

/-- What is parked when no homing is interrupted: the started operation at the front, or nothing. -/
def frontWork (s : State) : ParkedWork :=
  match front s with
  | some o => if o.started then .operation else .nothing
  | none => .nothing

/-- A FEED stopped in mid-feed keeps the half-lines still to feed (R73, R79); the reading says how many are fed. -/
def noteFed (fed : Nat) (s : State) : State :=
  updateFront (fun o => match o.body with
    | .feed n => { o with fed := min n.natAbs (max o.fed fed) }
    | .print _ _ _ _ | .lift _ _ _ _ _ | .pause _ | .mark _ _ => o) s

/-- A change to OPEN is taken (R73). -/
def coverOpened (carriageAt fed : Nat) (s : State) : State :=
  match s.pmc.state with
  | .moving | .striking | .recovering =>
    let s1 := stopCarriage carriageAt s
    if allPassesDone s1 then park .nothing (completeStrike false s1) else park .operation s1
  | .feeding => park .operation (noteFed fed s)
  | .pausing => park .operation s
  | .homing =>
    -- the homing stops where it stands: in a carriage part, at the reading (R73, R161, notes/assumptions/10.md)
    let s1 := stopCarriage carriageAt s
    match s.pmc.homing with
    | some h => park (.homing h.kind) s1
    | none => park (frontWork s1) s1
  | .ready | .resting | .held => park (frontWork s) s
  | .parked | .unhomed | .fault => s

/-- A change to CLOSED is taken (R74): in PARKED the interrupted homing begins again, or a close re-home is made. -/
def coverClosed (carriageAt : Nat) (s : State) : State :=
  match s.pmc.state with
  | .parked =>
    let s1 := stopCarriage carriageAt s
    match s.pmc.parked with
    | some (.homing k) => beginHoming k s1
    | some .nothing | some .operation | none => beginHoming .close s1
  | .unhomed | .homing | .ready | .moving | .striking | .recovering | .pausing | .feeding | .resting | .held
  | .fault => s

/-- A change of the debounced cover state is taken (R72): COVER is set, whatever the change. -/
def coverChanged (isOpen : Bool) (carriageAt fed : Nat) (s : State) : State :=
  let s1 := setEvent .cover (s.withPmc { s.pmc with coverOpen := isOpen })
  if isOpen then coverOpened carriageAt fed s1 else coverClosed carriageAt s1

/-- A sample of the cover switch (R72): a change is taken when two successive samples agree and differ from the
debounced state. -/
def sampleCover (isOpen : Bool) (carriageAt fed : Nat) (s : State) : State :=
  let s1 := s.withPmc { s.pmc with lastSample := some isOpen }
  if s.pmc.lastSample = some isOpen ∧ isOpen ≠ s.pmc.coverOpen then coverChanged isOpen carriageAt fed s1 else s1

end Sys2Proof.Machine
end

