-- ==== Sys2Proof/Machine/Checker.lean ====
section
/-! DEFINITION. The meanings of CHECK_BEGIN, VERDICT_DELIVERY, ADD_REQUEST_BEGIN and ADD_REQUEST_END (R115 to R121). -/
namespace Sys2Proof.Machine

/-! ### CHECK_BEGIN, VERDICT_DELIVERY (R115 to R118) -/

/-- A check can begin (R115), and the filter and list pointers have been read (R123). -/
def checkReady (s : State) : Bool :=
  !s.spc.queue.isEmpty && s.spc.flight.isNone && s.spc.requests.isEmpty && !stalled s &&
    s.spc.filterBase.isSome && s.spc.filterOrder.isSome && s.spc.userList.isSome

/-- The front word goes into flight, with the verdict its reads give, host accesses falling among them (R115 to R117, R138). -/
def beginCheck (s : State) : State :=
  match s.spc.queue, s.spc.filterBase, s.spc.filterOrder, s.spc.userList with
  | w :: ws, some base, some order, some list =>
    let v := verdictOf (atAccess .spc s) base order list w.folds
    let t := afterTraffic .spc s
    t.withSpc { t.spc with queue := ws, flight := some { word := w, verdict := v, discarded := false } }
  | _, _, _, _ => s

/-- CHECK_BEGIN (R115). -/
def execCheckBegin (s : State) : Host.Outcome State Fault Refusal :=
  transition s (checkReady s) beginCheck

/-- The check in flight ends and its verdict is delivered or discarded (R118, R114). -/
def deliverVerdict (s : State) : State :=
  match s.spc.flight with
  | some f => deliver f s
  | none => s

/-- VERDICT_DELIVERY (R118). -/
def execVerdictDelivery (s : State) : Host.Outcome State Fault Refusal :=
  transition s s.spc.flight.isSome deliverVerdict

/-! ### ADD_REQUEST_BEGIN, ADD_REQUEST_END (R120, R121) -/

/-- The front add request has not begun. -/
def requestWaiting (s : State) : Bool :=
  match s.spc.requests with
  | q :: _ => q.finding.isNone
  | [] => false

/-- An add request can begin: no check in flight and no stall (R120), and the list pointer has been read (R123). -/
def addReady (s : State) : Bool := requestWaiting s && s.spc.flight.isNone && !stalled s && s.spc.userList.isSome

/-- The search of the User Word List, host accesses falling among its reads (R121 steps 1 to 3, R138). -/
def beginAdd (s : State) : State :=
  match s.spc.requests, s.spc.userList with
  | q :: qs, some list =>
    let found := searchList (atAccess .spc s) list q.folds 0
    let t := afterTraffic .spc s
    t.withSpc { t.spc with requests := { q with finding := some found } :: qs }
  | _, _ => s

/-- ADD_REQUEST_BEGIN (R121). -/
def execAddRequestBegin (s : State) : Host.Outcome State Fault Refusal :=
  transition s (addReady s) beginAdd

/-- The front request leaves the pending requests. -/
def dropRequest (s : State) : State := s.withSpc { s.spc with requests := s.spc.requests.tail }

/-- An add request is refused: REFUSED with its origin and sequence number, and no tone (R121, R55). -/
def refuseRequest (r : Reason) (q : AddRequest) (s : State) : State :=
  dropRequest (post (refusedNotice r q.origin q.seq s.lst.platenTag) s)

/-- The request ends by what its search found (R121 steps 2 to 5). -/
def endAdd (s : State) : State :=
  match s.spc.requests, s.spc.userList with
  | q :: _, some list =>
    (match q.finding with
     | none => s
     | some .equalSlot => refuseRequest .already q s
     | some .noSlot => refuseRequest .listFull q s
     | some (.emptySlot i) => dropRequest (remarkGood q.folds (writeSlot list i q.folds s)))
  | _, _ => s

/-- The front request has been searched for. -/
def requestSearched (s : State) : Bool :=
  match s.spc.requests with
  | q :: _ => q.finding.isSome
  | [] => false

/-- ADD_REQUEST_END (R121). -/
def execAddRequestEnd (s : State) : Host.Outcome State Fault Refusal :=
  transition s (requestSearched s && s.spc.userList.isSome) endAdd

end Sys2Proof.Machine
end

