-- ==== Sys2Proof/Machine/LineStore.lean ====
section
/-! DEFINITION. The shared operations of the Line Store (chapter 1): making cells, inserting in line mode, releasing, closing and reopening a line, applying a mode, and when an action at the head of TAQ converts (R6). -/
namespace Sys2Proof.Machine

/-! ### When the action at the head converts (R6) -/

/-- Conditions 1 to 3 of R6: homed since reset, no stall, no conversion in progress. -/
def convertible (s : State) : Bool :=
  s.pmc.everReady && !stalled s && decide (s.lst.conv = .idle)

/-- The action at the head is converted when it is of the kind, R6 holds and its own wait is satisfied. -/
def converting (k : KeyKind) (s : State) (waitOver : Bool) (f : Action → State → State) :
    Host.Outcome State Fault Refusal :=
  match s.taq with
  | [] => .next s
  | a :: _ => transition s (decide (a.kind = k) && convertible s && waitOver) (f a)

/-- A step of the conversion in progress, on the action at the head. -/
def continuing (s : State) (ready : Bool) (f : Action → State → State) : Host.Outcome State Fault Refusal :=
  match s.taq with
  | [] => .next s
  | a :: _ => transition s ready (f a)

/-- Set the conversion in progress. -/
def setConv (c : Conversion) (s : State) : State := s.withLst { s.lst with conv := c }

/-! ### Making cells (R1) -/

/-- A cell made from a character: the fields of R1 from the wheel-table entry; its place is still to be set. -/
def charCell (s : State) (a : Action) (st : CellState) : Cell :=
  let e := wheelEntry s a.code
  { id := s.lst.nextId, code := a.code, blank := .no, petal := e.petal, wheel := s.lst.wheelNumber
    hammerClass := e.hammerClass, passes := e.passes, fold := e.fold, start := 0, fBefore := 0, advance := 0, fAfter := 0
    state := st, mark := .unmarked, wordNo := 0, origin := a.origin, reopened := false }

/-- A blank cell (R1): code 0x20, petal, class and fold value 0, lift passes 1. -/
def blankCell (s : State) (a : Action) (b : Blank) (st : CellState) : Cell :=
  { id := s.lst.nextId, code := 0x20, blank := b, petal := 0, wheel := s.lst.wheelNumber
    hammerClass := 0, passes := 1, fold := 0, start := 0, fBefore := 0, advance := 0, fAfter := 0
    state := st, mark := .unmarked, wordNo := 0, origin := a.origin, reopened := false }

/-- The list is full: a further cell is refused with LINE_FULL (R4). -/
def lineFull (s : State) : Bool := decide (160 ≤ s.lst.cells.length)

/-- Append a cell at the end of the list and step the identity counter. -/
def appendCell (c : Cell) (s : State) : State :=
  s.withLst { s.lst with cells := s.lst.cells ++ [c], nextId := s.lst.nextId + 1 }

/-- A PRINT for a non-blank cell, nothing for a blank one (R2). -/
def placePrint (c : Cell) (s : State) : State := if c.inked then placeOp (printOf s c) s else s

/-- A cell is made in direct mode (R7 to R9): appended, its PRINT placed, the point at its end, the bell test,
the report to SPC. -/
def makeDirect (c : Cell) (a : Action) (s : State) : State :=
  finishAction a (reportMade c (bellTest (setPoint c.ending (placePrint c (appendCell c s)))))

/-- Make a placed cell in direct mode, or refuse it: LINE_FULL, then the margin test (R7, R8). -/
def offerDirect (c : Cell) (a : Action) (s : State) : State :=
  if lineFull s then refuse .lineFull a s
  else match marginTest s.esc s.lst.mode.marginRelease c.ending with
    | some r => refuse r a s
    | none => makeDirect c a s

/-! ### Line mode (R14, R15) -/

/-- The compose origin; it is the print point until the first composed cell is made (R14). -/
def originOf (s : State) : Point :=
  if (composedCells s).isEmpty then point s else s.lst.composeOrigin.getD (point s)

/-- Put a composed line in place: its cells after the others, the cursor, the origin, and the point of R14. -/
def setComposed (origin : Point) (cs : List Cell) (cursor : Nat) (s : State) : State :=
  let s1 := s.withLst { s.lst with
    cells := settledCells s ++ cs, cursor := cursor, composeOrigin := if cs.isEmpty then none else some origin }
  setPoint (cursorPoint origin cs cursor) s1

/-- A line-mode insertion at the cursor (R15): LINE_FULL, the recompute with its tests, then the change as a whole. -/
def insertComposed (c : Cell) (a : Action) (s : State) : State :=
  if lineFull s then refuse .lineFull a s
  else
    let cs := composedCells s
    let k := s.lst.cursor
    let origin := originOf s
    match recompute s.esc s.lst.mode.marginRelease origin (cs.take k ++ c :: cs.drop k) with
    | .error r => refuse r a s
    | .ok cs' =>
      -- R113: the open run is ended before the first composed cell of a line is reported
      let s1 := if cs.isEmpty && s.lst.mode.spellingOn then endOpenRun s else s
      let s2 := setComposed origin cs' (k + 1) (s1.withLst { s1.lst with nextId := s1.lst.nextId + 1 })
      finishAction a (bellTest (reportInserted k c s2))

/-- A change of ESC's margins or stops: with composed cells present the recompute of R15 follows, and a failure
refuses the action and leaves ESC as it was (R15, R33, R37). -/
def changeEsc (e : Esc) (a : Action) (s : State) : State :=
  if composing s then
    match recompute e s.lst.mode.marginRelease (originOf s) (composedCells s) with
    | .error r => refuse r a s
    | .ok cs => finishAction a (setComposed (originOf s) cs s.lst.cursor (s.withEsc e))
  else finishAction a (s.withEsc e)

/-! ### Moving the point (R10 to R12) -/

/-- One BACKSPACE step (R10): to the beginning of the newest cell ending at the point, or back one space product,
limited at LM, or at 0 from left of LM. -/
def backStep (cells : List Cell) (lm product : Nat) (pt : Point) : Point :=
  match newestEnding cells pt with
  | some c => c.beginning
  | none =>
    let floor := if lm ≤ pt.step then 16 * lm else 0
    Point.ofSixteenths (max floor (pt.sixteenths - product))

/-- A BACKSPACE's steps (R10). -/
def backSteps (cells : List Cell) (lm product : Nat) : Nat → Point → Point
  | 0, pt => pt
  | n + 1, pt => backSteps cells lm product n (backStep cells lm product pt)

/-- A FORWARD's move (R11): one space product right, limited at RM or 3359. -/
def forwardPoint (limit product : Nat) (pt : Point) : Point :=
  if limit ≤ pt.step then pt
  else
    let q := Point.ofSixteenths (pt.sixteenths + product)
    if passes q limit then { step := limit, frac := 0 } else q

/-- The later of two points, by step and then by fraction (R12). -/
def laterPoint (a b : Point) : Point :=
  if a.step < b.step ∨ (a.step = b.step ∧ a.frac < b.frac) then b else a

/-- The greatest end among the non-composed cells, or (LM, 0) (R12). -/
def greatestEnd (lm : Nat) (cells : List Cell) : Point :=
  match cells with
  | [] => { step := lm, frac := 0 }
  | c :: cs => cs.foldl (fun p d => laterPoint p d.ending) c.ending

/-- Move the cursor among the composed cells; the point follows (R16, R14). -/
def moveCursor (k : Nat) (s : State) : State :=
  setPoint (cursorPoint (originOf s) (composedCells s) k) (s.withLst { s.lst with cursor := k })

/-! ### Release (R18, R22) -/

/-- The composed blank cells at the end of the text order are left out (R18 step 1). -/
def dropTrailingBlanks (cs : List Cell) : List Cell := (cs.reverse.dropWhile (fun c => !c.inked)).reverse

/-- The cells to release and the RAGGED finding (R18 step 2, R38, R39). -/
def justified (s : State) (cs : List Cell) : List Cell × Bool :=
  if s.lst.mode.justify then
    match justify s.esc.rm (spaceAdvance s) cs with
    | some cs' => (cs', false)
    | none => (cs, true)
  else (cs, false)

/-- A line-mode RETURN begins the release (R17 step 3, R18): trailing blanks removed, the line justified. With no
cell left to release the close follows at once, from the compose origin. DESIGN CHOICE (notes/assumptions/15.md): from here to the
end of the release the cursor is at most the number of cells left and the point the end, as justified, of the cell before it. -/
def beginReturnRelease (s : State) : State :=
  let s0 := restartRest (s.withLst { s.lst with holdFlag := false, ragged := false })
  let kept := dropTrailingBlanks (composedCells s)
  let origin := originOf s
  if kept.isEmpty then setConv (.draining true) (setComposed origin [] 0 s0)
  else
    let (cs, ragged) := justified s kept
    let s1 := setComposed origin cs (min s.lst.cursor cs.length) s0
    s1.withLst { s1.lst with ragged := ragged, conv := .releasing true }

/-- The mode bits and the pitch selection of a MODE action take effect (R22, R26, R105). -/
def applyMode (a : Action) (s : State) : State :=
  let m := ModeBits.ofByte a.code
  let s1 := spellingChanged m.spellingOn s
  (s1.withLst { s1.lst with mode := m }).withEsc
    { s1.esc with pitch := (Pitch.ofNat? a.arg.toNat).getD s1.esc.pitch }

/-- The last composed cell has been released (R18 step 4, R22): the point at its end, the cursor 0; then the close
of a RETURN follows, or the MODE takes effect and leaves the head. -/
def finishRelease (closes : Bool) (e : Point) (a : Action) (s : State) : State :=
  let s1 := setPoint e (s.withLst { s.lst with cursor := 0, composeOrigin := none })
  if closes then setConv (.draining true) s1 else leaveHead a (applyMode a s1)

/-- Release one composed cell (R18 step 3): a blank cell becomes PRINTED, any other QUEUED with its PRINT. -/
def releaseCell (closes : Bool) (c : Cell) (a : Action) (s : State) : State :=
  let st : CellState := if c.inked then .queued else .printed
  let s1 := placePrint c (updateCell c.id (fun d => { d with state := st }) s)
  if (composedCells s1).isEmpty then finishRelease closes c.ending a s1 else s1

/-! ### Closing and reopening (R20, R21, R86, R87) -/

/-- The entry made from a cell at a close (R85). -/
def entryOf (tag : Half) (c : Cell) : Entry :=
  { code := c.code, petal := c.petal, wheel := c.wheel, hammerClass := c.hammerClass, passes := c.passes, fold := c.fold
    start := c.start, fBefore := c.fBefore, advance := c.advance, fAfter := c.fAfter, origin := c.origin, tag := tag }

/-- The cell made from an entry at a reopen (R21, R85). -/
def cellOf (id : Nat) (e : Entry) : Cell :=
  { id := id, code := e.code, blank := .no, petal := e.petal, wheel := e.wheel, hammerClass := e.hammerClass
    passes := e.passes, fold := e.fold, start := e.start, fBefore := e.fBefore, advance := e.advance, fAfter := e.fAfter
    state := .printed, mark := .unmarked, wordNo := 0, origin := e.origin, reopened := true }

/-- One entry joins at the back; a full memory first discards its oldest (R86). -/
def joinEntry (cmm : List Entry) (e : Entry) : List Entry :=
  (if 256 ≤ cmm.length then cmm.tail else cmm) ++ [e]

/-- The entries of a closing line join one at a time, in list order (R86). -/
def joinEntries (cmm es : List Entry) : List Entry := es.foldl joinEntry cmm

/-- Cells from entries, with identities from a first one on. -/
def cellsOf : Nat → List Entry → List Cell
  | _, [] => []
  | id, e :: es => cellOf id e :: cellsOf (id + 1) es

/-- The reopen at the end of every close (R21, R87): the entries of the new tag leave CMM and become cells. -/
def reopen (s : State) : State :=
  let es := s.cmm.filter (fun e => decide (e.tag = s.lst.platenTag))
  let s1 := s.withCmm (s.cmm.filter (fun e => decide (e.tag ≠ s.lst.platenTag)))
  s1.withLst { s1.lst with cells := cellsOf s.lst.nextId es, nextId := s.lst.nextId + es.length }

/-- The half-lines a close feeds (R20 step 5): an INDEX's argument, otherwise the line spacing. -/
def closeFeed (a : Action) (s : State) : Int :=
  if a.kind = .index then indexHalfLines a else (s.settings.lineSpacing : Int)

/-- The non-blank cells a close hands to CMM, in list order (R20 step 3). -/
def handedOver (s : State) : List Cell := s.lst.cells.filter Cell.inked

/-- A FEED operation, except for 0 half-lines (R20 step 5). -/
def placeFeed (n : Int) (s : State) : State := if n = 0 then s else placeOp (.feed n) s

/-- The line can close (R20 step 1): no cell is QUEUED or LIFT_PENDING and the Work List has room. -/
def drained (s : State) : Bool :=
  workHasRoom s && s.lst.cells.all (fun c => decide (c.state ≠ .queued) && decide (c.state ≠ .liftPending))

/-- The LINE_DONE notice (R20 step 7). -/
def lineDoneNotice (a : Action) (count : Nat) (closedTag : Half) (s : State) : Notice :=
  { kind := .lineDone, ragged := s.lst.ragged, detail := BitVec.ofNat 8 count, origin := a.origin, tag := closedTag
    position := half s.lst.step }

/-- The line close (R20 steps 2 to 8) for the action at the head, which then leaves TAQ. -/
def closeLine (a : Action) (s : State) : State :=
  let s2 := reportClosing s
  let es := (handedOver s2).map (entryOf s.lst.platenTag)
  let feed := closeFeed a s
  let s3 := s2.withCmm (joinEntries s2.cmm es)
  let s4 := s3.withLst { s3.lst with
    cells := [], cursor := 0, composeOrigin := none, holdFlag := false, platenTag := s.lst.platenTag + BitVec.ofInt 16 feed }
  let s5 := placeFeed feed (s4.withEsc { s4.esc with bellFlag := false })
  let s6 := if a.kind = .index then s5 else setPoint { step := s5.esc.lm, frac := 0 } s5
  let s7 := reopen (post (lineDoneNotice a es.length s.lst.platenTag s6) s6)
  finishAction a (s7.withLst { s7.lst with ragged := false })

end Sys2Proof.Machine
end

