-- ==== Sys2Proof/Machine/Convert.lean ====
section
/-! DEFINITION. The meanings of the CONVERT rows but ERASE, of SPELL_HOLD_TEST, LINE_RELEASE_CELL and LINE_CLOSE (chapters 1 to 3). -/
namespace Sys2Proof.Machine

/-! ### CHAR and TAB -/

/-- A CHAR in direct mode (R7, R8): the hot-zone test of a space, the wheel test of any other character. -/
def convertCharDirect (a : Action) (s : State) : State :=
  if a.code = 0x20 then
    if hotZoneReturn s then setConv (.draining false) s
    else offerDirect (placeCell (point s) (spaceProduct s) (blankCell s a .space .printed)) a s
  else if 95 < (wheelEntry s a.code).petal then refuse .notOnWheel a s
  else offerDirect (placeCell (point s) (charProduct s a.code) (charCell s a .queued)) a s

/-- A CHAR in line mode (R15): the wheel test of a character, then the insertion. -/
def convertCharLine (a : Action) (s : State) : State :=
  if a.code = 0x20 then
    insertComposed (placeCell (point s) (spaceProduct s) (blankCell s a .space .composed)) a s
  else if 95 < (wheelEntry s a.code).petal then refuse .notOnWheel a s
  else insertComposed (placeCell (point s) (charProduct s a.code) (charCell s a .composed)) a s

/-- A CHAR (R7, R8, R15). -/
def convertChar (a : Action) (s : State) : State :=
  if s.lst.mode.line then convertCharLine a s else convertCharDirect a s

/-- The head of TAQ. -/
def headAction (s : State) : Option Action := s.taq.head?

/-- A CHAR's own wait (R6, R7): in direct mode a character other than space waits for room on the Work List. -/
def charWaitOver (s : State) : Bool :=
  match headAction s with
  | some a => s.lst.mode.line || decide (a.code = 0x20) || workHasRoom s
  | none => false

/-- The words of the wheel table that a CHAR reads, in order (R144): the two of its entry, and for a character other than space
the two of the space's, which stand in for a width of 0 (R27). -/
def wheelWords (a : Action) (s : State) : List Nat :=
  let entry := wheelEntryAddr s a.code
  let space := wheelEntryAddr s 0x20
  if a.code = 0x20 then [entry, entry + 2] else [entry, entry + 2, space, space + 2]

/-- A CHAR with host accesses falling among its reads of the wheel table (R138, R144): it is converted by the entries as they
were read word by word, and leaves the RAM as the host has made it. -/
def convertCharAmong (a : Action) (s : State) : State :=
  match s.hpa.coming with
  | [] => convertChar a s
  | _ :: _ =>
    let t := afterTraffic .lst s
    (convertChar a (asRead (atAccess .lst s) 0 (wheelWords a s) t)).withRam t.ram

/-- CONVERT_CHAR (R7, R8, R15). -/
def execConvertChar (s : State) : Host.Outcome State Fault Refusal :=
  converting .char s (charWaitOver s) convertCharAmong

/-- A TAB in direct mode (R9): NO_STOP, MARGIN, LINE_FULL, or a tab cell to the stop. -/
def convertTabDirect (a : Action) (s : State) : State :=
  match nextStop s.esc.tabs s.lst.step with
  | none => refuse .noStop a s
  | some t =>
    let c := placeTab (point s) t (blankCell s a .tab .printed)
    match marginTest s.esc s.lst.mode.marginRelease c.ending with
    | some r => refuse r a s
    | none => if lineFull s then refuse .lineFull a s else makeDirect c a s

/-- A TAB (R9, R15). -/
def convertTab (a : Action) (s : State) : State :=
  if s.lst.mode.line then insertComposed (blankCell s a .tab .composed) a s else convertTabDirect a s

/-- CONVERT_TAB (R9, R15). -/
def execConvertTab (s : State) : Host.Outcome State Fault Refusal := converting .tab s true convertTab

/-! ### BACKSPACE, FORWARD, RELOCATE -/

/-- A BACKSPACE (R10, R16). -/
def convertBackspace (a : Action) (s : State) : State :=
  finishAction a
    (if composing s then moveCursor (s.lst.cursor - backspaceCount a) s
     else setPoint (backSteps s.lst.cells s.esc.lm (spaceProduct s) (backspaceCount a) (point s)) s)

/-- CONVERT_BACKSPACE (R10, R16). -/
def execConvertBackspace (s : State) : Host.Outcome State Fault Refusal := converting .backspace s true convertBackspace

/-- A FORWARD (R11, R16). -/
def convertForward (a : Action) (s : State) : State :=
  finishAction a
    (if composing s then moveCursor (min (s.lst.cursor + 1) (composedCells s).length) s
     else bellTest (setPoint (forwardPoint (rightLimit s.esc s.lst.mode.marginRelease) (spaceProduct s) (point s)) s))

/-- CONVERT_FORWARD (R11, R16). -/
def execConvertForward (s : State) : Host.Outcome State Fault Refusal := converting .forward s true convertForward

/-- A RELOCATE (R12, R16). -/
def convertRelocate (a : Action) (s : State) : State :=
  finishAction a
    (if composing s then moveCursor (composedCells s).length s
     else setPoint (greatestEnd s.esc.lm (settledCells s)) s)

/-- CONVERT_RELOCATE (R12, R16). -/
def execConvertRelocate (s : State) : Host.Outcome State Fault Refusal := converting .relocate s true convertRelocate

/-! ### RETURN, release, INDEX, close -/

/-- A RETURN begins (R17 step 1, R20 step 1): in line mode SPC ends the unmarked runs, and the RETURN waits. -/
def convertReturn (_a : Action) (s : State) : State :=
  if s.lst.mode.line then setConv .spelling (endLineRuns s) else setConv (.draining false) s

/-- CONVERT_RETURN (R17, R20). -/
def execConvertReturn (s : State) : Host.Outcome State Fault Refusal := converting .ret s true convertReturn

/-- Some cell of the list carries MISS (R17 step 2). -/
def anyMiss (s : State) : Bool := s.lst.cells.any (fun c => decide (c.mark = .miss))

/-- The wait of R17 step 1 is over: no PENDING cell and no add request (R122). -/
def checksDone (s : State) : Bool := s.lst.cells.all (fun c => decide (c.mark ≠ .pending)) && s.spc.requests.isEmpty

/-- Steps 2 and 3 of a line-mode RETURN (R17): the hold test refuses, or the release begins. -/
def spellHoldTest (a : Action) (s : State) : State :=
  if s.lst.mode.spellingHold && anyMiss s && !s.lst.holdFlag then
    let t := refuse .spellHold a s
    t.withLst { t.lst with holdFlag := true }
  else beginReturnRelease s

/-- SPELL_HOLD_TEST (R17, R122). -/
def execSpellHoldTest (s : State) : Host.Outcome State Fault Refusal :=
  continuing s (decide (s.lst.conv = .spelling) && !stalled s && checksDone s) spellHoldTest

/-- The next composed cell can be released (R18 step 3): a blank cell at once, any other with room on the Work List. -/
def releaseReady (s : State) : Bool :=
  match s.lst.conv, (composedCells s).head? with
  | .releasing _, some c => !c.inked || workHasRoom s
  | _, _ => false

/-- Release the next composed cell (R18). -/
def lineReleaseCell (a : Action) (s : State) : State :=
  match s.lst.conv, (composedCells s).head? with
  | .releasing closes, some c => releaseCell closes c a s
  | _, _ => s

/-- LINE_RELEASE_CELL (R18, R22). -/
def execLineReleaseCell (s : State) : Host.Outcome State Fault Refusal := continuing s (releaseReady s) lineReleaseCell

/-- An INDEX (R19): refused with NOT_EMPTY while composed cells exist, otherwise it waits for the close. -/
def convertIndex (a : Action) (s : State) : State :=
  if composing s then refuse .notEmpty a s else setConv (.draining false) s

/-- CONVERT_INDEX (R19, R20). -/
def execConvertIndex (s : State) : Host.Outcome State Fault Refusal := converting .index s true convertIndex

/-- The close can be made (R20 step 1, R6): a close not yet begun also waits for a stall to end. -/
def closeReady (s : State) : Bool :=
  match s.lst.conv with
  | .draining begun => (begun || !stalled s) && drained s
  | .idle | .spelling | .releasing _ | .erasing _ => false

/-- LINE_CLOSE (R20, R21). -/
def execLineClose (s : State) : Host.Outcome State Fault Refusal := continuing s (closeReady s) closeLine

/-! ### MODE, MARGIN, TABSET, WHEEL -/

/-- A MODE that turns MARGIN RELEASE off over composed cells makes the recompute test of R15; this is its failure (R22). -/
def modeRefused (m : ModeBits) (s : State) : Bool :=
  m.line && composing s && s.lst.mode.marginRelease && !m.marginRelease &&
    (match recompute s.esc false (originOf s) (composedCells s) with
     | .error _ => true
     | .ok _ => false)

/-- A MODE (R22): a release when it leaves line mode with composed cells, a refusal, or the bits and pitch. -/
def convertMode (a : Action) (s : State) : State :=
  let m := ModeBits.ofByte a.code
  if composing s && !m.line then setConv (.releasing false) (restartRest (endRunsLeavingLine s))
  else if modeRefused m s then refuse .margin a s
  else if !s.lst.mode.line && m.line then
    -- R113: the open run is ended; composing begins with the cursor at 0 (R22)
    let s1 := if s.lst.mode.spellingOn then endOpenRun s else s
    finishAction a (applyMode a (s1.withLst { s1.lst with cursor := 0 }))
  else finishAction a (applyMode a s)

/-- CONVERT_MODE (R22, R26). -/
def execConvertMode (s : State) : Host.Outcome State Fault Refusal := converting .mode s true convertMode

/-- A MARGIN (R33). -/
def convertMargin (a : Action) (s : State) : State :=
  changeEsc (setMargin s.esc (decide (a.code = 0)) (marginPosition a s.lst.step)) a s

/-- CONVERT_MARGIN (R33). -/
def execConvertMargin (s : State) : Host.Outcome State Fault Refusal := converting .margin s true convertMargin

/-- The stops after a TABSET at a step, or its refusal (R36, R37). -/
def tabsetStops (code p : Nat) (tabs : List Nat) : Except Reason (List Nat) :=
  match code with
  | 0 => if p ∈ tabs then .error .already else if 16 ≤ tabs.length then .error .tabsFull else .ok (insertStop p tabs)
  | 1 => if p ∈ tabs then .ok (tabs.filter (fun t => decide (t ≠ p))) else .error .noStop
  | 2 => .ok []
  | _ => .error .noStop

/-- A TABSET (R36, R37): a changed set over composed cells is followed by the recompute. -/
def convertTabset (a : Action) (s : State) : State :=
  match tabsetStops a.code.toNat s.lst.step s.esc.tabs with
  | .error r => refuse r a s
  | .ok tabs => if tabs = s.esc.tabs then finishAction a s else changeEsc { s.esc with tabs := tabs } a s

/-- CONVERT_TABSET (R36, R37). -/
def execConvertTabset (s : State) : Host.Outcome State Fault Refusal := converting .tabset s true convertTabset

/-- A WHEEL (R56). -/
def convertWheel (a : Action) (s : State) : State :=
  finishAction a (s.withLst { s.lst with wheelNumber := a.code.toNat, wheelTable := some a.arg })

/-- CONVERT_WHEEL (R56). -/
def execConvertWheel (s : State) : Host.Outcome State Fault Refusal := converting .wheel s true convertWheel

/-! ### PAUSE, MARK, SHOW, ADD_WORD -/

/-- CONVERT_PAUSE (R57): once the Work List has room. -/
def execConvertPause (s : State) : Host.Outcome State Fault Refusal :=
  converting .pause s (workHasRoom s) (fun a t => finishAction a (placeOp (.pause (pauseMs a)) t))

/-- CONVERT_MARK (R57): once the Work List has room. -/
def execConvertMark (s : State) : Host.Outcome State Fault Refusal :=
  converting .mark s (workHasRoom s) (fun a t => finishAction a (placeOp (.mark a.arg a.origin) t))

/-- A message byte as shown: 0x20 if it lies outside 0x20 to 0x7E (R130). -/
def messageCode (b : Byte) : Byte := if 0x20 ≤ b.toNat ∧ b.toNat ≤ 0x7E then b else 0x20

/-- The 32 message cells of a SHOW, byte i as its own access finds it (R130). -/
def messageCells (look : Nat → State) (a : Action) : List Byte :=
  (List.range 32).map (fun i => if i < a.code.toNat then messageCode (ramByte (look i) (a.arg.toNat + i)) else 0x20)

/-- A SHOW (R130), host accesses falling among its reads (R138): the message is shown and its timer starts at the message
time. -/
def convertShow (a : Action) (s : State) : State :=
  let t := afterTraffic .lst s
  finishAction a ((t.withDsp { t.dsp with message := some (messageCells (atAccess .lst s) a) }).withTmb
    { t.tmb with message := startTimer t (100 * t.settings.messageTime) })

/-- CONVERT_SHOW (R130). -/
def execConvertShow (s : State) : Host.Outcome State Fault Refusal :=
  converting .showText s true convertShow

/-- An ADD_WORD handed over to SPC (R120): NO_WORD, or an add request from the Last Miss, which becomes absent. -/
def convertAddWord (a : Action) (s : State) : State :=
  match s.spc.lastMiss with
  | none => refuse .noWord a s
  | some folds =>
    finishAction a (s.withSpc { s.spc with
      lastMiss := none
      requests := s.spc.requests ++ [{ folds := folds, origin := a.origin, seq := a.seq, finding := none }] })

/-- CONVERT_ADD_WORD (R120). -/
def execConvertAddWord (s : State) : Host.Outcome State Fault Refusal := converting .addWord s true convertAddWord

end Sys2Proof.Machine
end

