-- ==== Sys2Proof/Machine/Erase.lean ====
section
/-! DEFINITION. The meanings of CONVERT_ERASE and ERASE_STEP (chapter 5): the walk over non-composed cells and the walk over composed cells. -/
namespace Sys2Proof.Machine

/-! ### The mode tests (R95 to R97) -/

/-- The word-mode test (R97): the phase after a target, or none when the walk ends before it. -/
def phaseAfter (ph : ErasePhase) (c : Cell) : Option ErasePhase :=
  match ph with
  | .blanks => if c.inked then (if c.fold = 0 then none else some .letters) else some .blanks
  | .letters => if c.inked ∧ c.fold ≠ 0 then some .letters else none

/-- The point is at or left of (LM, 0) (R96). -/
def atLineStart (s : State) : Bool :=
  decide (s.lst.step < s.esc.lm ∨ (s.lst.step = s.esc.lm ∧ s.esc.frac = 0))

/-- The mode's own test before a target is acted on (R90 test 2): the phase to go on with, or none to end. -/
def modeTest (s : State) (w : Walk) (c : Cell) : Option ErasePhase :=
  match w.mode with
  | .count => some w.phase
  | .lineStart => if atLineStart s then none else some w.phase
  | .word => phaseAfter w.phase c

/-! ### One step over non-composed cells (R90 to R94) -/

/-- The PRINT of a cell stands on the Work List not started (R60, R92). -/
def printUnstarted (s : State) (id : Nat) : Bool :=
  s.pmc.work.any (fun o => match o.body with
    | .print c _ _ _ => decide (c = id) && !o.started
    | .lift _ _ _ _ _ | .feed _ | .pause _ | .mark _ _ => false)

/-- What a step does with its target (R90, R92). -/
inductive EraseMove where
  /-- The walk ends before any target. -/
  | endWalk
  | passOver (c : Cell) (ph : ErasePhase)
  | wrongWheel
  | removeBlank (c : Cell) (ph : ErasePhase)
  | removePrint (c : Cell) (ph : ErasePhase)
  | queueLift (c : Cell) (ph : ErasePhase)
  deriving DecidableEq, Repr

/-- The move of a step: its target, the mode test, LIFT_PENDING, the wheel check, the target's state (R90, R91, R92). A step that
waits for room makes them all afresh when it acts (R93). DESIGN CHOICE (notes/assumptions/34.md): the mode test too, so a
Settings read at RUN that moves LM meanwhile can end a walk to the line start that waits. -/
def eraseMove (s : State) (w : Walk) : EraseMove :=
  match newestEnding s.lst.cells (point s) with
  | none => .endWalk
  | some c =>
    match modeTest s w c with
    | none => .endWalk
    | some ph =>
      if c.state = .liftPending then .passOver c ph
      else if c.inked && decide (c.wheel ≠ s.lst.wheelNumber) then .wrongWheel
      else if !c.inked then .removeBlank c ph
      else if decide (c.state = .queued) && printUnstarted s c.id then .removePrint c ph
      else .queueLift c ph

/-- PMC removes the unstarted PRINT of a cell (R60). -/
def removePrintOf (id : Nat) (s : State) : State :=
  setWork (s.pmc.work.filter (fun o => match o.body with
    | .print c _ _ _ => !(decide (c = id) && !o.started)
    | .lift _ _ _ _ _ | .feed _ | .pause _ | .mark _ _ => true)) s

/-- After a step has acted on its target or passed over it (R94): the point at its beginning, the count decreased;
when the count reaches 0 the walk ends. -/
def afterStep (w : Walk) (c : Cell) (ph : ErasePhase) (acted : Bool) (a : Action) (s : State) : State :=
  let s1 := setPoint c.beginning s
  if w.mode = .count ∧ w.remaining ≤ 1 then leaveHead a s1
  else setConv (.erasing { w with remaining := w.remaining - 1, phase := ph, acted := w.acted || acted }) s1

/-- The walk's conversion begins with the first step that acts: the rest timer begins again (R78, R89). -/
def beginActing (w : Walk) (s : State) : State := if w.acted then s else restartRest s

/-- One step of the walk (R90 to R94). -/
def eraseStep (w : Walk) (a : Action) (s : State) : State :=
  match eraseMove s w with
  | .endWalk => if w.acted then leaveHead a s else refuse .nothingToErase a s
  | .passOver c ph => afterStep w c ph false a (reportErased c s)
  | .wrongWheel => refuseWith .wrongWheel (half w.remaining) a s
  | .removeBlank c ph => afterStep w c ph true a (reportLifted c.id (reportErased c (beginActing w s)))
  | .removePrint c ph =>
    afterStep w c ph true a (reportLifted c.id (reportErased c (removePrintOf c.id (beginActing w s))))
  | .queueLift c ph =>
    afterStep w c ph true a
      (updateCell c.id (fun d => { d with state := .liftPending }) (placeOp (liftOf s c) (reportErased c (beginActing w s))))

/-- A step can be made: a LIFT needs room on the Work List (R93), and a walk still waiting waits for a stall to end
(R6, R89). -/
def eraseReady (s : State) : Bool :=
  match s.lst.conv with
  | .erasing w =>
    (w.acted || !stalled s) &&
      (match eraseMove s w with
       | .queueLift _ _ => workHasRoom s
       | .endWalk | .passOver _ _ | .wrongWheel | .removeBlank _ _ | .removePrint _ _ => true)
  | .idle | .spelling | .draining _ | .releasing _ => false

/-- ERASE_STEP (R90 to R94). -/
def execEraseStep (s : State) : Host.Outcome State Fault Refusal :=
  continuing s (eraseReady s) (fun a t =>
    match t.lst.conv with
    | .erasing w => eraseStep w a t
    | .idle | .spelling | .draining _ | .releasing _ => t)

/-! ### The walk over composed cells (R101, R102) -/

/-- Remove the composed cell before the cursor, reported as an edit at its place (R101, R112). -/
def removeBeforeCursor (c : Cell) (s : State) : State :=
  let s1 := reportLifted c.id (reportRemoved (s.lst.cursor - 1) c s)
  s1.withLst { s1.lst with cursor := s1.lst.cursor - 1 }

/-- The composed-cell walk, at most so many steps (R101): it ends when the cursor reaches 0, when the count is spent,
or when the word-mode test ends it. -/
def walkComposed (mode : EraseMode) : Nat → ErasePhase → State → State
  | 0, _, s => s
  | n + 1, ph, s =>
    if s.lst.cursor = 0 then s
    else match (composedCells s)[s.lst.cursor - 1]? with
      | none => s
      | some c =>
        match mode with
        | .word =>
          match phaseAfter ph c with
          | none => s
          | some ph' => walkComposed mode n ph' (removeBeforeCursor c s)
        | .count | .lineStart => walkComposed mode n ph (removeBeforeCursor c s)

/-- The most steps a composed-cell walk makes (R101). -/
def composedSteps (a : Action) (s : State) : Nat :=
  match eraseMode a with
  | .count => eraseCount a
  | .lineStart | .word => s.lst.cursor

/-- The remaining composed cells are recomputed from the origin, without the tests of R15 step 5 (R102). -/
def recomputeAfterErase (origin : Point) (s : State) : State :=
  let cs := composedCells s
  setComposed origin ((layOut s.esc.tabs origin cs).getD cs) s.lst.cursor s

/-- An ERASE over composed cells (R101, R102). -/
def eraseComposed (a : Action) (s : State) : State :=
  let origin := originOf s
  let t := walkComposed (eraseMode a) (composedSteps a s) .blanks s
  if t.lst.cursor = s.lst.cursor then refuse .nothingToErase a s
  else finishAction a (recomputeAfterErase origin t)

/-! ### CONVERT_ERASE (R89, R103) -/

/-- The walk begins (R89). -/
def beginWalk (a : Action) : Walk :=
  { mode := eraseMode a, remaining := eraseCount a, phase := .blanks, acted := false }

/-- An ERASE (R89, R101, R103): over composed cells whole, otherwise the tape test and the walk. -/
def convertErase (r : Sensors) (a : Action) (s : State) : State :=
  if composing s then eraseComposed a s
  else
    let s1 := readSensors r s
    if r.tape then setConv (.erasing (beginWalk a)) s1 else refuse .tapeEnd a s1

/-- CONVERT_ERASE (R89, R101). -/
def execConvertErase (r : Sensors) (s : State) : Host.Outcome State Fault Refusal :=
  converting .erase s true (convertErase r)

end Sys2Proof.Machine
end

