-- ==== Sys2Proof/Machine/HostPort.lean ====
section
/-! DEFINITION. The meanings of the host's register writes but RUN, WAKE and FLUSH, and of HOST_RAM_ACCESS (R137, R139 to R141, R71, R76, R152). -/
namespace Sys2Proof.Machine

/-! ### Event, Event Enable, Anchor Page -/

/-- EVENT_WRITE (R140): each bit written 0 is cleared, a bit written 1 stays as it is. -/
def execEventWrite (v : Byte) (s : State) : Host.Outcome State Fault Refusal :=
  transition s true (fun t => t.withHpa { t.hpa with event := t.hpa.event &&& v })

/-- EVENT_ENABLE_WRITE (R140): the six enables are stored; bits 6 and 7 read 0 (section 8.5). -/
def execEventEnableWrite (v : Byte) (s : State) : Host.Outcome State Fault Refusal :=
  transition s true (fun t => t.withHpa { t.hpa with eventEnable := v &&& 0x3F })

/-- ANCHOR_PAGE_WRITE (R141): taken while RUN is 0, ignored while it is 1. -/
def execAnchorPageWrite (v : Byte) (s : State) : Host.Outcome State Fault Refusal :=
  transition s (!runOn s) (fun t => t.withHpa { t.hpa with anchorPage := v })

/-! ### QUIET and REHOME -/

/-- QUIET written 1 (R76): the reason is set; READY and RESTING go to HELD at once, RESTING with the motors still off. -/
def quietSet (s : State) : State :=
  let t := setQuiet true s
  match t.pmc.state with
  | .ready | .resting => enterHeld t
  | .unhomed | .homing | .moving | .striking | .recovering | .pausing | .feeding | .parked | .held | .fault => t

/-- QUIET_SET (R76). -/
def execQuietSet (s : State) : Host.Outcome State Fault Refusal := transition s true quietSet

/-- HELD ends (R75): for RESTING if it was entered with the motors off and no wheel re-home has been made since, else
for READY. -/
def leaveHeld (s : State) : State :=
  if s.pmc.motors = .off then s.withPmc { s.pmc with state := .resting } else toReady s

/-- QUIET written 0 (R76, R75): the reason is cleared, and HELD ends when no other reason is present. -/
def quietClear (s : State) : State :=
  let t := setQuiet false s
  if t.pmc.state = .held ∧ t.pmc.ribbonHold = false then leaveHeld t else t

/-- QUIET_CLEAR (R76). -/
def execQuietClear (s : State) : Host.Outcome State Fault Refusal := transition s true quietClear

/-- REHOME is taken in FAULT with the cover closed and no stall (R71). -/
def rehomeTaken (s : State) : Bool := decide (s.pmc.state = .fault) && !s.pmc.coverOpen && !stalled s

/-- REHOME (R71 steps 1 and 2): the retry count becomes 0 and a carriage re-home begins, a wheel re-home to follow. -/
def execRehome (s : State) : Host.Outcome State Fault Refusal :=
  transition s (rehomeTaken s) (fun t => beginHoming .rehome (t.withPmc { t.pmc with retry := 0 }))

/-! ### What a written register byte is taken as (R139, R140, R141, section 8.5) -/

/-- The commands that a byte written to Command is taken as (R139): SOFT_RESET alone when its bit is 1; otherwise one for each
bit whose written value acts, RUN and QUIET by either value. The order, which R139 leaves open, is that of the bits
(DESIGN CHOICE, notes/assumptions/25.md). -/
def commandEvents (v : Byte) : List Instr :=
  if v.getLsbD 5 then [.softReset]
  else
    [if v.getLsbD 0 then .runStart else .runStop] ++ (if v.getLsbD 1 then [.wake] else []) ++
      (if v.getLsbD 2 then [.flush] else []) ++ [if v.getLsbD 3 then .quietSet else .quietClear] ++
      (if v.getLsbD 4 then [.rehome] else [])

/-- The commands that a byte written to the register space at an offset is taken as (R137, section 8.5); no register stands at
another offset. -/
def registerEvents (offset : Nat) (v : Byte) : List Instr :=
  match offset with
  | 0 => commandEvents v
  | 1 => [.eventWrite v]
  | 2 => [.eventEnableWrite v]
  | 3 => [.anchorPageWrite v]
  | _ => []

/-- The commands that a word written to the register space at an even offset is taken as: the register at the offset, then the
one above it. DESIGN CHOICE (notes/assumptions/36.md): R137 allows the access and gives no order of the two. -/
def registerWordEvents (offset : Nat) (v : Half) : List Instr :=
  registerEvents offset (lowByte v) ++ registerEvents (offset + 1) (highByte v)

/-- A word read from the register space at an even offset (R137): the register at the offset in the low byte. -/
def readRegisterWord (s : State) (offset : Nat) : Option Half :=
  match readRegister s offset, readRegister s (offset + 1) with
  | some l, some h => some (h.append l)
  | _, _ => none

/-- Commands carried out one after another, as the events of one host write are. -/
def carryOut (run : Instr → State → Host.Outcome State Fault Refusal) :
    List Instr → State → Host.Outcome State Fault Refusal
  | [], s => .next s
  | c :: cs, s =>
    match run c s with
    | .next t => carryOut run cs t
    | .fault f => .fault f
    | .refused r => .refused r

/-! ### RAM accesses of the host (R137) -/

/-- A host access to come is noted behind those noted before it (notes/assumptions/42.md). -/
def noteComing (c : ComingAccess) (s : State) : State := s.withHpa { s.hpa with coming := s.hpa.coming ++ [c] }

/-- HOST_RAM_ACCESS (R137): an address outside the RAM, and a word at an odd address, are no access of the port.
An access now is made at once; one during a work is made there (R138). -/
def execHostRamAccess (x : HostAccess) (s : State) : Host.Outcome State Fault Refusal :=
  if Config.ramSize ≤ (accessAddr x.ram).toNat then .fault .addressOutsideRam
  else if isWordAccess x.ram && decide ((accessAddr x.ram).toNat % 2 = 1) then .fault .oddWordAddress
  else match x with
    | .now a => .next (hostAccess a s)
    | .during turn a => .next (noteComing { turn := turn, access := a } s)

end Sys2Proof.Machine
end

