-- ==== Sys2Proof/Machine/LinkTone.lean ====
section
/-! DEFINITION. The meanings of DSP's own events: the blink, the display link, the message timer and the tone intervals (R127, R131 to R134). -/
namespace Sys2Proof.Machine

/-! ### BLINK_PHASE_CHANGE (R127) -/

/-- BLINK_PHASE_CHANGE (R127): the phase toggles and the image is recomputed. The tick gives it at the marks of R154; given at
another moment it stands for a mark (DESIGN CHOICE, notes/assumptions/38.md). -/
def execBlinkPhaseChange (s : State) : Host.Outcome State Fault Refusal :=
  transition s true (fun t => t.withDsp { t.dsp with blinkOn := !t.dsp.blinkOn })

/-! ### The display link (R132, R133) -/

/-- An image cell. -/
def imageAt (s : State) (i : Nat) : ImageCell := s.dsp.image.getD i blankImage

/-- A cell's image differs from its Sent Image, which unknown always does (R132). -/
def cellDiffers (s : State) (i : Nat) : Bool := decide (s.dsp.sent.getD i none ≠ some (imageAt s i))

/-- The cells in the order of the search: from the link pointer up, wrapping from 39 to 0 (R132). -/
def searchOrder (ptr : Nat) : List Nat := (List.range 40).map (fun k => (ptr + k) % 40)

/-- The cell whose transfer begins at this tick (R132, R133). -/
def nextTransfer (s : State) : Option Nat :=
  match s.dsp.linkMode with
  | .diff => (searchOrder s.dsp.linkPtr).find? (cellDiffers s)
  | .scan => some s.dsp.linkPtr

/-- A transfer begins with the content the image holds (R132 step 1), if a cell is to be sent. -/
def beginTransfer (s : State) : State :=
  match nextTransfer s with
  | some i => s.withDsp { s.dsp with transfer := some { index := i, content := imageAt s i } }
  | none => s

/-- DISPLAY_TRANSFER_BEGIN (R132, R133): no transfer is under way; at any moment it stands for a link tick (DESIGN CHOICE,
notes/assumptions/38.md). -/
def execDisplayTransferBegin (s : State) : Host.Outcome State Fault Refusal :=
  transition s s.dsp.transfer.isNone beginTransfer

/-- The transfer completes (R132 step 2): the Sent Image takes the values sent and the link pointer moves on. -/
def completeTransfer (s : State) : State :=
  match s.dsp.transfer with
  | some t =>
    s.withDsp { s.dsp with
      sent := s.dsp.sent.set t.index (some t.content), linkPtr := (t.index + 1) % 40, transfer := none }
  | none => s

/-- DISPLAY_TRANSFER_COMPLETE (R132). -/
def execDisplayTransferComplete (s : State) : Host.Outcome State Fault Refusal :=
  transition s s.dsp.transfer.isSome completeTransfer

/-! ### The message and the tone (R131, R134) -/

/-- MESSAGE_TIMER_EXPIRY (R131, R155): the message timer has run out, and the shown message ends. -/
def execMessageTimerExpiry (s : State) : Host.Outcome State Fault Refusal :=
  transition s (s.dsp.message.isSome && ranOut s.tmb.message) endMessage

/-- The next interval of the pattern begins, or the output falls silent (R134). -/
def nextInterval (s : State) : State :=
  match s.dsp.tone with
  | none => s
  | some t =>
    match (patternSeries t.pattern)[t.interval + 1]? with
    | some ms =>
      (s.withDsp { s.dsp with tone := some { t with interval := t.interval + 1 } }).withTmb
        { s.tmb with tone := startTimer s ms }
    | none => (s.withDsp { s.dsp with tone := none }).withTmb { s.tmb with tone := none }

/-- TONE_INTERVAL_EXPIRY (R134, R155): a pattern is sounding and its interval has run out. -/
def execToneIntervalExpiry (s : State) : Host.Outcome State Fault Refusal :=
  transition s (s.dsp.tone.isSome && ranOut s.tmb.tone) nextInterval

end Sys2Proof.Machine
end

