-- ==== Sys2Proof/Machine/Notices.lean ====
section
/-! DEFINITION. The Notice Writer: the ring, the Status Mirror, and the meanings of NOTICE_WRITE, NOTICE_TAKEN_REREAD and MIRROR_TICK (R142, R150 to R153). -/
namespace Sys2Proof.Machine

/-! ### The Notice Ring (R151, R152) -/

/-- NTW writes its produced count into NoticeProduced (R151, R153). -/
def writeProduced (s : State) : State := writeHalf (anchorBase s + 14) s.ntw.produced s

/-- The address of the ring entry for the produced count (R151). NoticeBase is set whenever RUN has been made. -/
def ringAddr (s : State) : Nat := (s.ntw.noticeBase.getD 0).toNat + 8 * (s.ntw.produced.toNat % 32)

/-- Steps 2 to 4 of R151: the entry, then the count, then the entry leaves the holding queue and NOTICE is set. -/
def writeEntry (n : Notice) (s : State) : State :=
  let s1 := writeBytes (ringAddr s) n.bytes s
  let s2 := writeProduced (s1.withNtw { s1.ntw with produced := s1.ntw.produced + 1 })
  setEvent .notice (s2.withNtw { s2.ntw with holding := s2.ntw.holding.tail, ringWaiting := false, takenTouched := false })

/-- Unread is (produced count − NoticeTaken) mod 65536 (R151). -/
def unread (s : State) (taken : Half) : Nat := (s.ntw.produced - taken).toNat

/-- NTW reads NoticeTaken and writes the front entry, or finds the ring full and waits (R151, R152). -/
def tryNotice (n : Notice) (s : State) : State :=
  let taken := ramHalf s (anchorBase s + 16)
  let s1 := s.withNtw { s.ntw with lastTaken := some taken }
  if 32 ≤ unread s taken then s1.withNtw { s1.ntw with ringWaiting := true, takenTouched := false }
  else writeEntry n s1

/-- The front of the Notice Holding Queue is tried, if there is one. -/
def tryFront (s : State) : State :=
  match s.ntw.holding with
  | [] => s
  | n :: _ => tryNotice n s

/-- NOTICE_WRITE (R151): the holding queue is not empty and NTW does not wait for a full ring; nothing is written
before the first RUN after a reset (R153). -/
def execNoticeWrite (s : State) : Host.Outcome State Fault Refusal :=
  transition s (s.klr.ran && !s.ntw.ringWaiting && !s.ntw.holding.isEmpty) tryFront

/-- NOTICE_TAKEN_REREAD (R152): while the ring is full, after a host write that touched NoticeTaken. -/
def execNoticeTakenReread (s : State) : Host.Outcome State Fault Refusal :=
  transition s (s.ntw.ringWaiting && s.ntw.takenTouched && !s.ntw.holding.isEmpty) tryFront

/-! ### The Status Mirror (R142) -/

/-- A mirror field: its offset in the Anchor Block, its width in bytes, its present value (section 8.5). -/
structure MirrorField where
  offset : Nat
  width : Nat
  value : Nat
  deriving DecidableEq, Repr

/-- HoldReasons: bit 0 RIBBON, bit 1 QUIET (section 8.5). -/
def holdReasons (s : State) : Nat := s.pmc.ribbonHold.toNat + 2 * (quietOn s).toNat

/-- The seventeen mirror fields in the order of the layout (R142, section 8.5). -/
def mirrorFields (s : State) : List MirrorField :=
  [⟨20, 2, s.lst.step⟩, ⟨22, 2, s.lst.platenTag.toNat⟩, ⟨24, 2, s.spc.unchecked⟩, ⟨26, 2, s.pmc.lifts⟩,
   ⟨28, 4, s.pmc.strikes⟩, ⟨32, 1, s.esc.frac⟩, ⟨33, 1, s.pmc.state.toNat⟩, ⟨34, 1, s.lst.mode.toNat⟩,
   ⟨35, 1, s.esc.pitch.toNat⟩, ⟨36, 1, s.taq.length⟩, ⟨37, 1, s.pmc.work.length⟩, ⟨38, 1, s.pmc.faultReason.toNat⟩,
   ⟨39, 1, s.klr.state.toNat⟩, ⟨40, 1, holdReasons s⟩, ⟨41, 1, s.pmc.coverOpen.toNat⟩,
   ⟨42, 1, s.lst.cells.length⟩, ⟨43, 1, s.lst.cursor⟩]

/-- The bytes of a value, least significant first. -/
def valueBytes : Nat → Nat → List Byte
  | 0, _ => []
  | n + 1, v => BitVec.ofNat 8 v :: valueBytes n (v / 256)

/-- Write each field that differs from the value last written, in layout order (R142 step 2). -/
def writeFields (base : Nat) : List MirrorField → List (Option Nat) → State → State
  | f :: fs, last :: lasts, s =>
    writeFields base fs lasts (if last = some f.value then s else writeBytes (base + f.offset) (valueBytes f.width f.value) s)
  | _, _, s => s

/-- MirrorCount increases by one and is written (R142). -/
def stepMirrorCount (s : State) : State :=
  let s1 := s.withNtw { s.ntw with mirrorCount := s.ntw.mirrorCount + 1 }
  writeByte (anchorBase s1 + 13) s1.ntw.mirrorCount s1

/-- The batch of R142: an odd MirrorCount, the differing fields, an even MirrorCount. -/
def mirrorBatch (s : State) : State :=
  let s1 := stepMirrorCount s
  let s2 := writeFields (anchorBase s1) (mirrorFields s) s.ntw.mirrorLast s1
  stepMirrorCount (s2.withNtw { s2.ntw with mirrorLast := (mirrorFields s).map (fun f => some f.value) })

/-- Some field differs from the value last written (R142). -/
def mirrorDiffers (s : State) : Bool :=
  decide (s.ntw.mirrorLast ≠ (mirrorFields s).map (fun f => some f.value))

/-- MIRROR_TICK (R142): no batch before the first RUN after a reset, and none when no field differs. The tick gives it at the
marks of R154; given at another moment it stands for a mark (DESIGN CHOICE, notes/assumptions/38.md). -/
def execMirrorTick (s : State) : Host.Outcome State Fault Refusal :=
  transition s (s.klr.ran && mirrorDiffers s) mirrorBatch

end Sys2Proof.Machine
end

