-- ==== Sys2Proof/Machine/PrintMech.lean ====
section
/-! DEFINITION. The meanings of the print mechanism's own events: taking up, motion, slips, settle and spacing, the hammer, homings, the cover, FEED, PAUSE, rest, idle follow and the park move (chapter 4, R159, R160). -/
namespace Sys2Proof.Machine

/-! ### OPERATION_TAKE_UP (R62, R63) -/

/-- The front operation is taken up with the sensors as they read; with QUIET set HELD is entered instead (R62, R76). -/
def takeUpFront (r : Sensors) (s : State) : State :=
  match front s with
  | none => s
  | some o => if quietOn s then enterHeld s else takeUp o (readSensors r s)

/-- The front operation can be taken up: READY, the list not empty, no stall (R62). -/
def takeUpReady (s : State) : Bool :=
  decide (s.pmc.state = .ready) && !s.pmc.work.isEmpty && !stalled s

/-- OPERATION_TAKE_UP (R62). -/
def execOperationTakeUp (r : Sensors) (s : State) : Host.Outcome State Fault Refusal :=
  transition s (takeUpReady s) (takeUpFront r)

/-! ### Arrivals (R64, R66) -/

/-- The start and petal of the front operation (R59). -/
def frontGoal (s : State) : Option (Nat × Nat) := (frontBody s).bind OpBody.goal?

/-- The carriage is travelling to the front operation's start (R64). -/
def travelling (s : State) : Bool := decide (s.pmc.state = .moving) && !s.pmc.carriageArrived && (frontGoal s).isSome

/-- The carriage arrives at the start; the settle starts if the wheel has arrived too (R64, R66). -/
def carriageArrives (s : State) : State :=
  match frontGoal s with
  | none => s
  | some (st, _) => startSettle (s.withPmc { s.pmc with carriage := some st, carriageArrived := true })

/-- CARRIAGE_ARRIVAL (R64). -/
def execCarriageArrival (s : State) : Host.Outcome State Fault Refusal := transition s (travelling s) carriageArrives

/-- The wheel is seeking the front operation's petal, and no slip re-home is in progress (R64, R65). -/
def seeking (s : State) : Bool :=
  decide (s.pmc.state = .moving) && !s.pmc.wheelArrived && !s.pmc.slipHoming && (frontGoal s).isSome

/-- The wheel arrives at the petal; the settle starts if the carriage has arrived too (R64, R66). -/
def wheelArrives (s : State) : State :=
  match frontGoal s with
  | none => s
  | some (_, pt) => startSettle (s.withPmc { s.pmc with wheel := some pt, wheelArrived := true })

/-- WHEEL_SEEK_ARRIVAL (R64): a seek from a trusted count. -/
def execWheelSeekArrival (s : State) : Host.Outcome State Fault Refusal :=
  transition s (seeking s && s.pmc.wheelTrusted) wheelArrives

/-! ### Slips (R65) -/

/-- The reading of a slip can be made: the count lies on the way of the seek (R64, R65). -/
def slipPossible (count : Nat) (s : State) : Bool :=
  match s.pmc.wheel, frontGoal s with
  | some w, some (_, pt) => seeking s && s.pmc.wheelTrusted && onSeekPath w pt count
  | _, _ => false

/-- A slip (R65 steps 1 to 4): the fourth of the operation enters FAULT, any other begins the re-home. -/
def wheelSlips (count carriageAt : Nat) (s : State) : State :=
  let s1 := s.withPmc { s.pmc with wheel := some count, wheelTrusted := false, retry := s.pmc.retry + 1 }
  if 4 ≤ s1.pmc.retry then enterFault .wheelLost (stopCarriage carriageAt s1)
  else s1.withPmc { s1.pmc with slipHoming := true }

/-- WHEEL_SLIP (R65). -/
def execWheelSlip (count carriageAt : Nat) (s : State) : Host.Outcome State Fault Refusal :=
  transition s (slipPossible count s) (wheelSlips count carriageAt)

/-! ### Settle and strike spacing (R66, R155) -/

/-- The settle is over: STRIKING is entered when the strike spacing is satisfied (R66). -/
def settleOver (s : State) : State :=
  let s1 := (s.withPmc { s.pmc with settled := true }).withTmb { s.tmb with settle := none }
  if spacingOver s1 then enterStriking s1 else s1

/-- SETTLE_EXPIRY (R66, R155): the settle timer has run out, in MOVING. -/
def execSettleExpiry (s : State) : Host.Outcome State Fault Refusal :=
  transition s (decide (s.pmc.state = .moving) && ranOut s.tmb.settle) settleOver

/-- The strike spacing runs out: a settled MOVING enters STRIKING (R66); in STRIKING the next fire may be made (R67). -/
def spacingRunsOut (s : State) : State :=
  let s1 := s.withTmb { s.tmb with spacing := none }
  if s1.pmc.state = .moving ∧ s1.pmc.settled = true then enterStriking s1 else s1

/-- STRIKE_SPACING_EXPIRY (R155): the strike spacing timer has run out. -/
def execStrikeSpacingExpiry (s : State) : Host.Outcome State Fault Refusal :=
  transition s (ranOut s.tmb.spacing) spacingRunsOut

/-! ### The hammer (R67) -/

/-- The hammer may fire (R67): STRIKING, the spacing over, a pass not yet struck, the trusted wheel at the petal. -/
def fireReady (s : State) : Bool :=
  decide (s.pmc.state = .striking) && spacingOver s &&
    (match front s, frontGoal s with
     | some o, some (_, pt) => decide (o.struck < o.body.passCount ∧ s.pmc.wheel = some pt) && s.pmc.wheelTrusted
     | _, _ => false)

/-- A fire counts one pass, starts the spacing timer, and after the last pass RECOVERING is entered (R66, R67). -/
def hammerFires (s : State) : State :=
  match front s with
  | none => s
  | some o =>
    let s1 := updateFront (fun q => { q with struck := q.struck + 1 }) s
    let s2 := (s1.withPmc { s1.pmc with
      lastFire := some { tick := s.tmb.ticks, onTick := s.tmb.onTick, energy := o.body.energy }
      state := if o.body.passCount ≤ o.struck + 1 then .recovering else .striking })
    s2.withTmb { s2.tmb with spacing := startTimer s2 30 }

/-- HAMMER_FIRE (R67). -/
def execHammerFire (s : State) : Host.Outcome State Fault Refusal := transition s (fireReady s) hammerFires

/-- RECOVERING_END (R68): the operation completes and PMC returns to READY, or to HELD for QUIET (R76). -/
def execRecoveringEnd (s : State) : Host.Outcome State Fault Refusal :=
  transition s (decide (s.pmc.state = .recovering)) (fun t => toReady (completeStrike true t))

/-! ### Homings (R69, R159, R160) -/

/-- A wheel re-home is in progress inside MOVING after a slip (R65, R69). -/
def slipHomingNow (s : State) : Bool := decide (s.pmc.state = .moving) && s.pmc.slipHoming && (frontGoal s).isSome

/-- The homing in progress in HOMING, when it is in its wheel part (R69). -/
def wheelPart (s : State) : Option HomingKind :=
  match s.pmc.state, s.pmc.homing with
  | .homing, some { kind := k, part := .wheel } => some k
  | _, _ => none

/-- The homing in progress in HOMING, when it is in its carriage part (R69). -/
def carriagePart (s : State) : Option HomingKind :=
  match s.pmc.state, s.pmc.homing with
  | .homing, some { kind := k, part := .carriage } => some k
  | _, _ => none

/-- The target of the first homing's move to the margin, when it is in its third part (R159, R161). -/
def marginPart (s : State) : Option Nat :=
  match s.pmc.state, s.pmc.homing with
  | .homing, some { kind := _, part := .toMargin t } => some t
  | _, _ => none

/-- The wheel count becomes 0 and is trusted (R69). -/
def wheelAtIndex (s : State) : State := s.withPmc { s.pmc with wheel := some 0, wheelTrusted := true }

/-- The seek starts again from 0 after a slip re-home (R65 step 5); a seek of 0 petals ends at once (R64). -/
def seekAgain (s : State) : State :=
  let s1 := wheelAtIndex s
  startSettle (s1.withPmc { s1.pmc with
    slipHoming := false
    wheelArrived := (match frontGoal s with
      | some (_, pt) => decide (pt = 0)
      | none => false) })

/-- The index mark is seen (R69): the seek or the homing continues. -/
def wheelIndexFound (r : Sensors) (s : State) : State :=
  match wheelPart s with
  | some k => homingWheelFound k (wheelAtIndex (readSensors r s))
  | none => seekAgain s

/-- A wheel re-home is in progress (R69). -/
def wheelHoming (s : State) : Bool := (wheelPart s).isSome || slipHomingNow s

/-- WHEEL_INDEX_FOUND (R69). -/
def execWheelIndexFound (r : Sensors) (s : State) : Host.Outcome State Fault Refusal :=
  transition s (wheelHoming s) (wheelIndexFound r)

/-- WHEEL_REHOME_FAIL (R69, R70): the carriage, if travelling, stops where the reading says. -/
def execWheelRehomeFail (carriageAt : Nat) (s : State) : Host.Outcome State Fault Refusal :=
  transition s (wheelHoming s) (fun t => enterFault .wheelLost (stopCarriage carriageAt t))

/-- The home switch closes: the carriage position becomes 0 and the wheel part follows (R69, R159). -/
def carriageHomed (s : State) : State :=
  match carriagePart s with
  | some k => s.withPmc { s.pmc with carriage := some 0, homing := some { kind := k, part := .wheel } }
  | none => s

/-- CARRIAGE_HOME_FOUND (R69). -/
def execCarriageHomeFound (s : State) : Host.Outcome State Fault Refusal :=
  transition s (carriagePart s).isSome carriageHomed

/-- CARRIAGE_REHOME_FAIL (R69, R70). -/
def execCarriageRehomeFail (s : State) : Host.Outcome State Fault Refusal :=
  transition s (carriagePart s).isSome (enterFault .carriageHome)

/-- Part 3 of the first homing ends (R160): READY, HOMED, its notice, and HELD for a hold reason. -/
def firstHomingEnds (s : State) : State :=
  match marginPart s with
  | none => s
  | some t =>
    let s1 := s.withPmc { s.pmc with
      state := .ready, everReady := true, motors := .on, supply := .down, homing := none, carriage := some t }
    let s2 := post (homedNotice 0 s1) (setEvent .homed s1)
    if holdReason s2 then enterHeld s2 else s2

/-- FIRST_HOMING_END (R160). -/
def execFirstHomingEnd (s : State) : Host.Outcome State Fault Refusal :=
  transition s (marginPart s).isSome firstHomingEnds

/-! ### The cover and the park move (R72, R73) -/

/-- COVER_SAMPLE (R72); at any moment it is a sample, and so one of two successive ones (DESIGN CHOICE, notes/assumptions/38.md). -/
def execCoverSample (isOpen : Bool) (carriageAt fed : Nat) (s : State) : Host.Outcome State Fault Refusal :=
  transition s true (sampleCover isOpen carriageAt fed)

/-- PARK_MOVE_END (R73): the carriage arrives at step 1680. -/
def execParkMoveEnd (s : State) : Host.Outcome State Fault Refusal :=
  transition s (decide (s.pmc.state = .parked) && s.pmc.parkMoving)
    (fun t => t.withPmc { t.pmc with carriage := some 1680, parkMoving := false })

/-! ### FEED and PAUSE (R79, R80) -/

/-- The last half-line has been fed (R79): the platen counter changes by the whole count and the FEED leaves the front. -/
def feedCompletes (s : State) : State :=
  match frontBody s with
  | some (.feed n) => toReady (removeFront (s.withPmc { s.pmc with platen := s.pmc.platen + BitVec.ofInt 16 n }))
  | some (.print _ _ _ _) | some (.lift _ _ _ _ _) | some (.pause _) | some (.mark _ _) | none => s

/-- The front operation is a FEED. -/
def feedAtFront (s : State) : Bool :=
  match frontBody s with
  | some (.feed _) => true
  | some (.print _ _ _ _) | some (.lift _ _ _ _ _) | some (.pause _) | some (.mark _ _) | none => false

/-- FEED_COMPLETE (R79). -/
def execFeedComplete (s : State) : Host.Outcome State Fault Refusal :=
  transition s (decide (s.pmc.state = .feeding) && feedAtFront s) feedCompletes

/-- A started PAUSE stands at the front (R80). -/
def pauseAtFront (s : State) : Bool :=
  match front s with
  | some o =>
    (match o.body with
     | .pause _ => o.started
     | .print _ _ _ _ | .lift _ _ _ _ _ | .feed _ | .mark _ _ => false)
  | none => false

/-- A PAUSE runs out (R80): it leaves the front; in PARKED nothing is left to resume, in PAUSING PMC returns to READY. -/
def pauseRunsOut (s : State) : State :=
  let s1 := removeFront (s.withTmb { s.tmb with pause := none })
  match s1.pmc.state with
  | .pausing => toReady s1
  | .parked => if s1.pmc.parked = some .operation then s1.withPmc { s1.pmc with parked := some .nothing } else s1
  | .unhomed | .homing | .ready | .moving | .striking | .recovering | .feeding | .resting | .held | .fault => s1

/-- PAUSE_EXPIRY (R80, R155): the pause timer, which a FAULT stops, has run out. -/
def execPauseExpiry (s : State) : Host.Outcome State Fault Refusal :=
  transition s (pauseAtFront s && ranOut s.tmb.pause && !s.pmc.pauseFrozen) pauseRunsOut

/-! ### Rest and idle follow (R77, R78) -/

/-- The conditions under which the rest timer counts (R78): READY, the list empty, the carriage at the point; and a rest time
that is not 0. DESIGN CHOICE (notes/assumptions/17.md): while the rest time is 0, which turns motor rest off, the timer
does not count, so a later RUN that sets a rest time finds the count it had before. -/
def restConditions (s : State) : Bool :=
  decide (s.pmc.state = .ready) && s.pmc.work.isEmpty && decide (s.pmc.carriage = some s.lst.step) &&
    decide (s.settings.restSeconds ≠ 0)

/-- The rest timer has reached the rest time while its conditions hold (R78, R155). It counts ticks, the one it was restarted
on among them: at a count of n + 1 at least n ms have passed since the restart, and at a count of n not yet. -/
def restOver (s : State) : Bool :=
  restConditions s && (match s.tmb.rest with
    | some n => decide (1000 * s.settings.restSeconds < n)
    | none => false)

/-- RESTING is entered (R78): the motors are off and the wheel count is no longer trusted. -/
def enterResting (s : State) : State :=
  (s.withPmc { s.pmc with state := .resting, motors := .off, wheelTrusted := false }).withTmb { s.tmb with rest := none }

/-- MOTOR_REST_EXPIRY (R78, R155): the rest time is over and its conditions still hold. -/
def execMotorRestExpiry (s : State) : Host.Outcome State Fault Refusal := transition s (restOver s) enterResting

/-- The mechanism is to wake (R78): an operation at the front, or the point moved away from the carriage. DESIGN CHOICE
(notes/assumptions/39.md): by whatever moved it, a Settings read at RUN (R23) too. -/
def wakeReady (s : State) : Bool :=
  decide (s.pmc.state = .resting) && (!s.pmc.work.isEmpty || decide (s.pmc.carriage ≠ some s.lst.step))

/-- WAKE_FROM_REST (R78): the motors are energised and a wake re-home of the wheel begins. -/
def execWakeFromRest (s : State) : Host.Outcome State Fault Refusal := transition s (wakeReady s) (beginHoming .wake)

/-- Idle follow runs (R77): READY with an empty list or with an operation the conditions of R62 hold back, and FEEDING. -/
def followRuns (s : State) : Bool :=
  match s.pmc.state with
  | .ready => s.pmc.work.isEmpty || stalled s || quietOn s
  | .feeding => true
  | .unhomed | .homing | .moving | .striking | .recovering | .pausing | .resting | .parked | .held | .fault => false

/-- A position moved toward a goal by at most so many steps. -/
def moveToward (at_ goal steps : Nat) : Nat :=
  if at_ ≤ goal then min goal (at_ + steps) else max goal (at_ - steps)

/-- A piece of idle follow (R77). -/
def follow (steps : Nat) (s : State) : State :=
  match s.pmc.carriage with
  | some c => s.withPmc { s.pmc with carriage := some (moveToward c s.lst.step steps) }
  | none => s

/-- IDLE_FOLLOW (R77). -/
def execIdleFollow (steps : Nat) (s : State) : Host.Outcome State Fault Refusal :=
  transition s (followRuns s) (follow steps)

end Sys2Proof.Machine
end

