-- ==== Sys2Proof/Machine/Reader.lean ====
section
/-! DEFINITION. The Key List Reader: the meanings of RUN_START, SETTINGS_CLAMPED_POST, RUN_STOP, WAKE, FLUSH, KEY_RECORD_FETCH, RECORD_TAKE, TEXT_BYTE_READ, HELD_FULL_RESUME, LINK_REREAD, WALK_START and LIST_POLL (chapters 3 and 8, R158). -/
namespace Sys2Proof.Machine

/-! ### HeldRecord, AT_END, BAD (R147, R148) -/

/-- The held record's address, or 0xFFFF when no record is held (R148). -/
def heldAddress (s : State) : Half := s.klr.held.getD 0xFFFF

/-- KLR writes HeldRecord (R142, R148). -/
def writeHeldRecord (v : Half) (s : State) : State := writeHalf (anchorBase s + 18) v s

/-- Entry into AT_END (R148): HeldRecord, then LISTEND. -/
def enterAtEnd (s : State) : State :=
  setEvent .listend (writeHeldRecord (heldAddress s) (s.withKlr { s.klr with state := .atEnd, linkDue := false }))

/-- The reader stops (R149): FROM_HELD, HeldRecord written, LISTEND not set. -/
def enterStopped (s : State) : State :=
  writeHeldRecord (heldAddress s) (s.withKlr { s.klr with
    state := .stopped, restart := .fromHeld, pendingStop := false, linkDue := false, walkDue := false })

/-- Why a link or KeyHead is bad (R147): the LIST_BAD detail, or none for a good one. DESIGN CHOICE (notes/assumptions/40.md): a
value that fails both tests has detail 1. -/
def badAddress (v : Half) : Option Byte :=
  if v.toNat % 8 ≠ 0 then some 1 else if 0x7FF8 < v.toNat then some 2 else none

/-- Entry into BAD (R147): HeldRecord, then LIST_BAD with the record the bad value came from. -/
def enterBad (detail : Byte) (from_ bad : Half) (s : State) : State :=
  let n : Notice :=
    { kind := .listBad, ragged := false, detail := detail, origin := from_, tag := s.lst.platenTag, position := bad }
  post n (writeHeldRecord from_ (s.withKlr { s.klr with state := .bad, linkDue := false, walkDue := false }))

/-- The reader enters FETCH at an address (R147). -/
def enterFetch (addr : Half) (s : State) : State :=
  s.withKlr { s.klr with state := .fetch, current := addr, linkDue := false, walkDue := false }

/-- The link of the held record is read and tested as after a return (R147). -/
def followLink (h : Half) (s : State) : State :=
  let link := ramHalf s h.toNat
  if link = 0 then enterAtEnd s
  else match badAddress link with
    | some d => enterBad d h link s
    | none => enterFetch link s

/-! ### Returning a record (R45, R47) -/

/-- The record is returned: custody 0 is written, it becomes the held record, and the link re-read follows, or the
pending stop is taken (R45 step 4, R146, R149). -/
def giveBack (s : State) : State :=
  let s1 := writeByte (s.klr.current.toNat + 2) 0 s
  let s2 := s1.withKlr { s1.klr with state := .taking, held := some s.klr.current, linkDue := true }
  if s2.klr.pendingStop then enterStopped s2 else s2

/-- Write the outcome, then custody 0 (R45 step 4). -/
def returnRecord (o : RecordOutcome) (s : State) : State := giveBack (writeByte (s.klr.current.toNat + 5) o.toByte s)

/-- Write the outcome and the two counts, then custody 0 (R47 step 5, R53). -/
def returnText (o : RecordOutcome) (s : State) : State :=
  let a := s.klr.current.toNat
  giveBack (writeByte (a + 7) (BitVec.ofNat 8 s.klr.skipped) (writeByte (a + 6) (BitVec.ofNat 8 s.klr.made)
    (writeByte (a + 5) o.toByte s)))

/-- TAQ holds 64 actions (R49). -/
def taqFull (s : State) : Bool := decide (64 ≤ s.taq.length)

/-- Place an action at the tail of TAQ with the next sequence number (R41, R42). -/
def placeAction (k : KeyKind) (code : Byte) (arg : Half) (s : State) : State :=
  let a : Action := { kind := k, code := code, arg := arg, origin := s.klr.current, seq := s.klr.seq }
  (s.withTaq (s.taq ++ [a])).withKlr { s.klr with seq := s.klr.seq + 1 }

/-- The reader enters HELD_FULL (R51). -/
def enterHeldFull (s : State) : State := s.withKlr { s.klr with state := .heldFull }

/-- The latched record is a TEXT record. -/
def isText (s : State) : Bool := decide (KeyKind.ofByte s.klr.latched.kind = some .text)

/-- A record is being taken and not yet returned (R145). -/
def takingRecord (s : State) : Bool := decide (s.klr.state = .taking) && !s.klr.linkDue

/-! ### KEY_RECORD_FETCH (R146) -/

/-- Custody 0 ends a fetch after its first read (R146): AT_END, the write of HeldRecord being KLR's next access (R138). -/
def fetchEnds (s : State) : State := afterTraffic .klr (dropCome 1 (enterAtEnd (atAccess .klr s 1)))

/-- A record in custody is read to its end (R146): kind, code and argument as the RAM holds them at the three word reads, while
host writes of the record are held (R137). -/
def fetchLatches (s : State) : State :=
  let a := s.klr.current.toNat
  let look := atFetch a s
  let t := afterTraffic .klr s
  t.withKlr { t.klr with
    state := .taking, linkDue := false, offset := 0, made := 0, skipped := 0
    latched := { kind := ramByte (look 0) (a + 3), code := ramByte (look 1) (a + 4), arg := ramHalf (look 2) (a + 6) } }

/-- The fetch of the record at the current address: custody 0 leads to AT_END, any other custody latches the fields. -/
def fetchRecord (s : State) : State :=
  if ramByte (atAccess .klr s 0) (s.klr.current.toNat + 2) = 0 then fetchEnds s else fetchLatches s

/-- KEY_RECORD_FETCH (R146): begun in FETCH with no stall. -/
def execKeyRecordFetch (s : State) : Host.Outcome State Fault Refusal :=
  transition s (decide (s.klr.state = .fetch) && !stalled s) fetchRecord

/-! ### RECORD_TAKE (R44, R45) -/

/-- Step 3 and 4 of R45 for an accepted record: its action is placed, ACCEPTED and custody 0 are written. -/
def placeAndReturn (k : KeyKind) (s : State) : State :=
  returnRecord .accepted (placeAction k s.klr.latched.code s.klr.latched.arg s)

/-- The take of a record other than TEXT (R45). -/
def takeRecord (s : State) : State :=
  match validate s.klr.latched with
  | .error o => returnRecord o s
  | .ok k => if taqFull s then enterHeldFull s else placeAndReturn k s

/-- The next step of a take can be made: during a stall no action is placed and no TEXT byte is read (R45, R47). -/
def takeReady (s : State) : Bool :=
  match validate s.klr.latched with
  | .error _ => true
  | .ok _ => taqFull s || !stalled s

/-- RECORD_TAKE (R45). -/
def execRecordTake (s : State) : Host.Outcome State Fault Refusal :=
  transition s (takingRecord s && !isText s && takeReady s) takeRecord

/-! ### TEXT_BYTE_READ (R46, R47) -/

/-- Steps 3 and 4 of R47: the byte at the offset is read and placed or skipped. -/
def textByte (s : State) : State :=
  let b := ramByte s (s.klr.latched.arg.toNat + s.klr.offset)
  match textAction b with
  | some (k, code, arg) =>
    let t := placeAction k code arg s
    t.withKlr { t.klr with offset := t.klr.offset + 1, made := t.klr.made + 1 }
  | none => s.withKlr { s.klr with offset := s.klr.offset + 1, skipped := s.klr.skipped + 1 }

/-- The string is read to its end (R47 step 1). -/
def textDone (s : State) : Bool := decide (s.klr.latched.code.toNat ≤ s.klr.offset)

/-- One step of a TEXT expansion (R44, R47): a refused record is returned; a full TAQ holds it; otherwise the next
byte is taken, at the end of the string the record is returned with its counts, and a TAQ it has filled holds it. -/
def textStep (s : State) : State :=
  match validate s.klr.latched with
  | .error o => returnRecord o s
  | .ok _ =>
    if textDone s then returnText .accepted s
    else if taqFull s then enterHeldFull s
    else
      let t := textByte s
      if textDone t then returnText .accepted t else if taqFull t then enterHeldFull t else t

/-- TEXT_BYTE_READ (R47). -/
def execTextByteRead (s : State) : Host.Outcome State Fault Refusal :=
  transition s (takingRecord s && isText s && takeReady s) textStep

/-! ### HELD_FULL_RESUME (R51) -/

/-- The reader returns to TAKING; with no stall it goes on with the waiting action or byte. -/
def resumeTake (s : State) : State :=
  let t := s.withKlr { s.klr with state := .taking }
  if stalled t then t else if isText t then textStep t else takeRecord t

/-- HELD_FULL_RESUME (R51): TAQ has room again. -/
def execHeldFullResume (s : State) : Host.Outcome State Fault Refusal :=
  transition s (decide (s.klr.state = .heldFull) && !taqFull s) resumeTake

/-! ### LINK_REREAD, WALK_START (R147, R149) -/

/-- The link re-read after a return (R147). -/
def linkReread (s : State) : State :=
  match s.klr.held with
  | some h => followLink h s
  | none => s

/-- LINK_REREAD (R147): not held by a stall (R150). -/
def execLinkReread (s : State) : Host.Outcome State Fault Refusal :=
  transition s (decide (s.klr.state = .taking) && s.klr.linkDue && s.klr.held.isSome) linkReread

/-- The walk starts (R149): from KeyHead, from the held record's link, or at the current address. -/
def walkStart (s : State) : State :=
  match s.klr.restart, s.klr.held with
  | .fromHead, _ =>
    let head := s.klr.keyHead.getD 0
    let t := s.withKlr { s.klr with held := none, current := head }
    match badAddress head with
    | some d => enterBad d 0xFFFF head t
    | none => enterFetch head t
  | .fromHeld, some h => followLink h (s.withKlr { s.klr with walkDue := false })
  | .fromHeld, none => enterFetch s.klr.current s

/-- WALK_START (R149): after the reads at RUN, once no stall holds. -/
def execWalkStart (s : State) : Host.Outcome State Fault Refusal :=
  transition s (decide (s.klr.state = .stopped) && s.klr.walkDue && !stalled s) walkStart

/-! ### WAKE, LIST_POLL (R148, R152) -/

/-- Step 2 of the re-read in AT_END (R148): the custody of the current address. -/
def custodyReread (s : State) : State :=
  if ramByte s (s.klr.current.toNat + 2) = 0 then s else enterFetch s.klr.current s

/-- The re-read in AT_END (R148): the held record's link is tested, then the custody of the current address is read. -/
def atEndReread (s : State) : State :=
  match s.klr.held with
  | none => custodyReread s
  | some h =>
    let link := ramHalf s h.toNat
    if link = 0 then s
    else match badAddress link with
      | some d => enterBad d h link s
      | none => custodyReread (s.withKlr { s.klr with current := link })

/-- WAKE (R148): in AT_END it makes a re-read, in any other state it does nothing. -/
def execWake (s : State) : Host.Outcome State Fault Refusal :=
  transition s (decide (s.klr.state = .atEnd)) atEndReread

/-- The requests a list poll raises at the RAM port (R148, R152): KLR's re-read in AT_END and NTW's while the ring is full. -/
def pollRequests (s : State) : List Requester :=
  (if s.klr.state = .atEnd then [.klr] else []) ++ (if s.ntw.ringWaiting then [.ntw] else [])

/-- What a requester does once a list poll's request is granted: NTW re-reads NoticeTaken, KLR re-reads. -/
def pollWork : Requester → State → State
  | .ntw, s => tryFront s
  | .klr, s => atEndReread s
  | .hostPort, s | .lst, s | .spc, s | .mirror, s => s

/-- The list poll (R148, R152): its requests are served as the arbiter grants them (R138). -/
def listPoll (s : State) : State := servePort pollWork 2 (askPort (pollRequests s) s)

/-- LIST_POLL (R148, R152); at any moment it stands for a mark of the poll (DESIGN CHOICE, notes/assumptions/38.md). -/
def execListPoll (s : State) : Host.Outcome State Fault Refusal := transition s true listPoll

/-! ### FLUSH (R52, R53) -/

/-- The action at the head is in conversion (R50). -/
def inConversion (s : State) : Bool :=
  match s.lst.conv with
  | .draining begun => begun
  | .releasing _ => true
  | .erasing w => w.acted
  | .idle | .spelling => false

/-- TAQ and the conversion in progress at a FLUSH (R52): only an action in conversion stays. -/
def flushQueue (s : State) : State :=
  if inConversion s then s.withTaq (s.taq.take 1) else (s.withTaq []).withLst { s.lst with conv := .idle }

/-- The record in custody at a FLUSH (R53). -/
def flushRecord (s : State) : State :=
  match s.klr.state with
  | .heldFull => if isText s then returnText .flushed s else returnRecord .flushed s
  | .taking => if !s.klr.linkDue && isText s then returnText .flushed s else s
  | .stopped | .fetch | .atEnd | .bad => s

/-- FLUSH (R52, R53). -/
def execFlush (s : State) : Host.Outcome State Fault Refusal :=
  transition s true (fun t => flushRecord (flushQueue t))

/-! ### RUN_STOP (R149) -/

/-- RUN changed from 1 to 0 (R149): the reader stops at once or at the next record boundary. -/
def runStop (s : State) : State :=
  let t := setRun false s
  match t.klr.state with
  | .fetch | .atEnd => enterStopped t
  | .taking => if t.klr.linkDue then enterStopped t else t.withKlr { t.klr with pendingStop := true }
  | .heldFull => t.withKlr { t.klr with pendingStop := true }
  | .bad => t.withKlr { t.klr with state := .stopped, restart := .fromHead, badStop := true }
  | .stopped => t.withKlr { t.klr with walkDue := false }

/-- RUN_STOP (R149): a write of 0 while RUN is 0 does nothing. -/
def execRunStop (s : State) : Host.Outcome State Fault Refusal := transition s (runOn s) runStop

/-! ### The Settings Record (R25, R143) -/

/-- The Settings Record as read (section 8.5). -/
structure RawSettings where
  lineSpacing : Nat
  pitch : Nat
  customPitch : Nat
  unitSize : Nat
  liftBoost : Nat
  leftMargin : Nat
  rightMargin : Nat
  hotZone : Nat
  bellDistance : Nat
  energy0 : Nat
  energy1 : Nat
  energy2 : Nat
  energy3 : Nat
  restSeconds : Nat
  messageTime : Nat
  linkMode : Nat
  spellingFlags : Nat
  deriving DecidableEq, Repr

/-- Read the Settings Record at an address (R143, section 8.5). -/
def readSettings (s : State) (a : Nat) : RawSettings :=
  let b := fun i => (ramByte s (a + i)).toNat
  let h := fun i => (ramHalf s (a + i)).toNat
  { lineSpacing := b 0, pitch := b 1, customPitch := h 2, unitSize := b 4, liftBoost := b 5, leftMargin := h 6
    rightMargin := h 8, hotZone := h 10, bellDistance := h 12, energy0 := b 14, energy1 := b 15, energy2 := b 16
    energy3 := b 17, restSeconds := b 18, messageTime := b 19, linkMode := b 20, spellingFlags := b 21 }

/-- A value brought into a range. -/
def clamp (lo hi n : Nat) : Nat := max lo (min hi n)

/-- Each field brought into range on its own, RM against LM as just brought into range (R25, R143). -/
def clampSettings (r : RawSettings) : RawSettings :=
  let lm := min 3119 r.leftMargin
  { lineSpacing := clamp 1 8 r.lineSpacing, pitch := if r.pitch ≤ 4 then r.pitch else 0
    customPitch := clamp 128 640 r.customPitch, unitSize := clamp 32 96 r.unitSize, liftBoost := min 15 r.liftBoost
    leftMargin := lm, rightMargin := min 3359 (max (lm + 240) r.rightMargin), hotZone := min 480 r.hotZone
    bellDistance := min 480 r.bellDistance, energy0 := clamp 1 15 r.energy0, energy1 := clamp 1 15 r.energy1
    energy2 := clamp 1 15 r.energy2, energy3 := clamp 1 15 r.energy3, restSeconds := r.restSeconds
    messageTime := if r.messageTime = 0 then 1 else r.messageTime, linkMode := if r.linkMode ≤ 1 then r.linkMode else 0
    spellingFlags := r.spellingFlags % 4 }

/-- The fields of a Settings Record in index order 1 to 17 (section 8.5). -/
def settingsByIndex (r : RawSettings) : List Nat :=
  [r.lineSpacing, r.pitch, r.customPitch, r.unitSize, r.leftMargin, r.rightMargin, r.hotZone, r.bellDistance,
   r.energy0, r.energy1, r.energy2, r.energy3, r.liftBoost, r.restSeconds, r.messageTime, r.linkMode, r.spellingFlags]

/-- The fields that had to be changed, with the values used, from an index on (R143). -/
def clampsFrom : Nat → List Nat → List Nat → List Clamp
  | i, raw :: raws, used :: useds =>
    if raw = used then clampsFrom (i + 1) raws useds else { index := i, used := half used } :: clampsFrom (i + 1) raws useds
  | _, _, _ => []

/-- The fields that had to be changed, in index order (R143). -/
def clampsOf (r : RawSettings) : List Clamp := clampsFrom 1 (settingsByIndex r) (settingsByIndex (clampSettings r))

/-- The settings take effect (R25, R143, R136): ESC's fields, the other settings, the link mode, and the print point
at (LM, 0) when LST holds no cells (R23). -/
def applySettings (r : RawSettings) (s : State) : State :=
  let s1 := s.withEsc { s.esc with
    pitch := (Pitch.ofNat? r.pitch).getD .p10, customPitch := r.customPitch, unitSize := r.unitSize
    lm := r.leftMargin, rm := r.rightMargin, hotZone := r.hotZone, bellDistance := r.bellDistance }
  let s2 := s1.withSettings
    { lineSpacing := r.lineSpacing, energy0 := r.energy0, energy1 := r.energy1, energy2 := r.energy2, energy3 := r.energy3
      liftBoost := r.liftBoost, restSeconds := r.restSeconds, messageTime := r.messageTime }
  let s3 := s2.withDsp { s2.dsp with linkMode := if r.linkMode = 0 then .diff else .scan }
  if s.lst.cells.isEmpty then setPoint { step := r.leftMargin, frac := 0 } s3 else s3

/-- The Settings read at a change of RUN (R143): clamped, put in force, its changed fields kept for their notices. DESIGN CHOICE
(notes/assumptions/37.md): notices of an earlier read that are still due stay ahead of them. -/
def settingsRead (s : State) : State :=
  let raw := readSettings s (s.klr.settingsPtr.getD 0).toNat
  let t := applySettings (clampSettings raw) s
  t.withKlr { t.klr with clampDue := t.klr.clampDue ++ clampsOf raw }

/-- SETTINGS_CLAMPED of a changed field (R143). -/
def clampNotice (c : Clamp) (s : State) : Notice :=
  { kind := .settingsClamped, ragged := false, detail := BitVec.ofNat 8 c.index, origin := 0, tag := s.lst.platenTag
    position := c.used }

/-- The next SETTINGS_CLAMPED notice is posted (R143). -/
def postClamp (s : State) : State :=
  match s.klr.clampDue with
  | [] => s
  | c :: cs => post (clampNotice c s) (s.withKlr { s.klr with clampDue := cs })

/-- SETTINGS_CLAMPED_POST (R143): once the holding queue holds fewer than 2 entries. -/
def execSettingsClampedPost (s : State) : Host.Outcome State Fault Refusal :=
  transition s (!s.klr.clampDue.isEmpty && !stalled s) postClamp

/-! ### RUN_START (R141, R149, R153, R158) -/

/-- The Anchor Block reads of the first RUN after a reset (R141 step 1, R56, R123). -/
def readAnchor (s : State) : State :=
  let b := anchorBase s
  let s1 := s.withKlr { s.klr with keyHead := some (ramHalf s b), settingsPtr := some (ramHalf s (b + 2)), ran := true }
  let s2 := s1.withLst { s1.lst with wheelTable := some (ramHalf s (b + 4)) }
  let s3 := s2.withNtw { s2.ntw with noticeBase := some (ramHalf s (b + 6)) }
  s3.withSpc { s3.spc with
    filterBase := some (ramHalf s (b + 8)), userList := some (ramHalf s (b + 10)), filterOrder := some (ramByte s (b + 12)) }

/-- The Anchor Block reads of a later RUN (R141 step 2): SettingsPtr, and KeyHead after a stop in BAD. -/
def rereadAnchor (s : State) : State :=
  let b := anchorBase s
  s.withKlr { s.klr with
    settingsPtr := some (ramHalf s (b + 2)), badStop := false
    keyHead := if s.klr.badStop then some (ramHalf s b) else s.klr.keyHead }

/-- NTW at a change of RUN from 0 to 1 (R153): NoticeProduced is written and every mirror field is to be written. -/
def announce (s : State) : State :=
  writeProduced (s.withNtw { s.ntw with mirrorLast := List.replicate 17 none })

/-- SpellingFlags at the first RUN after a reset (R143): SPELLING ON and SPELLING HOLD. -/
def applySpellingFlags (flags : Nat) (s : State) : State :=
  s.withLst { s.lst with mode := { s.lst.mode with
    spellingOn := decide (flags % 2 = 1), spellingHold := decide (flags / 2 % 2 = 1) } }

/-- The first homing begins, or is kept as parked work while the cover is open (R158 step 3). -/
def beginFirstHoming (s : State) : State :=
  if s.pmc.coverOpen then
    s.withPmc { s.pmc with
      state := .parked, parked := some (.homing .first), parkMoving := false, motors := parkMotors (.homing .first) }
  else beginHoming .first s

/-- RUN changed from 0 to 1 (R149): the pending stop is cleared, the reads of R141 and R143 are made, and a stopped
reader is to start its walk. -/
def runReads (s : State) : State :=
  let s1 := setRun true s
  let s2 := s1.withKlr { s1.klr with pendingStop := false, walkDue := decide (s1.klr.state = .stopped) }
  if s.klr.ran then settingsRead (announce (rereadAnchor s2)) else settingsRead (announce (readAnchor s2))

/-- RUN changed from 0 to 1 (R149, R158). -/
def runStart (s : State) : State :=
  let t := runReads s
  if s.klr.ran then t
  else
    let flags := (clampSettings (readSettings t (t.klr.settingsPtr.getD 0).toNat)).spellingFlags
    beginFirstHoming (applySpellingFlags flags t)

/-- RUN_START (R149, R158): a write of 1 while RUN is 1 does nothing. -/
def execRunStart (s : State) : Host.Outcome State Fault Refusal := transition s (!runOn s) runStart

end Sys2Proof.Machine
end

