-- ==== Sys2Proof/Machine/Resets.lean ====
section
/-! DEFINITION. The meanings of RESET_ASSERT, RESET_RELEASE and SOFT_RESET (R156, R157). -/
namespace Sys2Proof.Machine

/-- Every block at its reset value, the RAM as it stood (R156, R157); the commands waiting and the host's accesses to come are
kept (notes/assumptions/31.md). -/
def blocksReset (s : State) : State :=
  ((State.reset.withRam s.ram).withPending s.pending).withHpa { Hpa.reset with coming := s.hpa.coming }

/-- The part held in power-on reset (R156): every block and register at its power-on value, the pin asserted. -/
def assertReset (s : State) : State :=
  let t := blocksReset s
  t.withHpa { t.hpa with resetPin := true }

/-- RESET_ASSERT (R156). -/
def execResetAssert (s : State) : Host.Outcome State Fault Refusal := .next (assertReset s)

/-- RESET_RELEASE (R156): the registers and every block hold their power-on values; a pin not asserted is not released. -/
def execResetRelease (s : State) : Host.Outcome State Fault Refusal :=
  if s.hpa.resetPin then .next (blocksReset s) else .next s

/-- A soft reset (R157, R139): every block at its reset value, Command and Event 0, Event Enable and Anchor Page kept. -/
def softReset (s : State) : State :=
  let t := blocksReset s
  t.withHpa { t.hpa with eventEnable := s.hpa.eventEnable, anchorPage := s.hpa.anchorPage }

/-- SOFT_RESET (R157). -/
def execSoftReset (s : State) : Host.Outcome State Fault Refusal := transition s true softReset

end Sys2Proof.Machine
end

