-- ==== Sys2Proof/Machine/Dispatch.lean ====
section
/-! DEFINITION. One arm per command of the table, in the table's order: a direct call of its meaning. -/
namespace Sys2Proof.Machine

def exec (i : Instr) (s : State) : Host.Outcome State Fault Refusal :=
  match i with
  | .resetAssert => Sys2Proof.Machine.execResetAssert s
  | .resetRelease => Sys2Proof.Machine.execResetRelease s
  | .softReset => Sys2Proof.Machine.execSoftReset s
  | .runStart => Sys2Proof.Machine.execRunStart s
  | .settingsClampedPost => Sys2Proof.Machine.execSettingsClampedPost s
  | .runStop => Sys2Proof.Machine.execRunStop s
  | .wake => Sys2Proof.Machine.execWake s
  | .flush => Sys2Proof.Machine.execFlush s
  | .quietSet => Sys2Proof.Machine.execQuietSet s
  | .quietClear => Sys2Proof.Machine.execQuietClear s
  | .rehome => Sys2Proof.Machine.execRehome s
  | .eventWrite value => Sys2Proof.Machine.execEventWrite value s
  | .eventEnableWrite value => Sys2Proof.Machine.execEventEnableWrite value s
  | .anchorPageWrite value => Sys2Proof.Machine.execAnchorPageWrite value s
  | .hostRamAccess access => Sys2Proof.Machine.execHostRamAccess access s
  | .keyRecordFetch => Sys2Proof.Machine.execKeyRecordFetch s
  | .recordTake => Sys2Proof.Machine.execRecordTake s
  | .textByteRead => Sys2Proof.Machine.execTextByteRead s
  | .heldFullResume => Sys2Proof.Machine.execHeldFullResume s
  | .linkReread => Sys2Proof.Machine.execLinkReread s
  | .walkStart => Sys2Proof.Machine.execWalkStart s
  | .listPoll => Sys2Proof.Machine.execListPoll s
  | .convertChar => Sys2Proof.Machine.execConvertChar s
  | .convertTab => Sys2Proof.Machine.execConvertTab s
  | .convertBackspace => Sys2Proof.Machine.execConvertBackspace s
  | .convertForward => Sys2Proof.Machine.execConvertForward s
  | .convertRelocate => Sys2Proof.Machine.execConvertRelocate s
  | .convertReturn => Sys2Proof.Machine.execConvertReturn s
  | .spellHoldTest => Sys2Proof.Machine.execSpellHoldTest s
  | .lineReleaseCell => Sys2Proof.Machine.execLineReleaseCell s
  | .convertIndex => Sys2Proof.Machine.execConvertIndex s
  | .lineClose => Sys2Proof.Machine.execLineClose s
  | .convertMode => Sys2Proof.Machine.execConvertMode s
  | .convertMargin => Sys2Proof.Machine.execConvertMargin s
  | .convertTabset => Sys2Proof.Machine.execConvertTabset s
  | .convertWheel => Sys2Proof.Machine.execConvertWheel s
  | .convertPause => Sys2Proof.Machine.execConvertPause s
  | .convertMark => Sys2Proof.Machine.execConvertMark s
  | .convertShow => Sys2Proof.Machine.execConvertShow s
  | .convertAddWord => Sys2Proof.Machine.execConvertAddWord s
  | .convertErase sensors => Sys2Proof.Machine.execConvertErase sensors s
  | .eraseStep => Sys2Proof.Machine.execEraseStep s
  | .operationTakeUp sensors => Sys2Proof.Machine.execOperationTakeUp sensors s
  | .carriageArrival => Sys2Proof.Machine.execCarriageArrival s
  | .wheelSeekArrival => Sys2Proof.Machine.execWheelSeekArrival s
  | .wheelSlip count carriageAt => Sys2Proof.Machine.execWheelSlip count carriageAt s
  | .settleExpiry => Sys2Proof.Machine.execSettleExpiry s
  | .strikeSpacingExpiry => Sys2Proof.Machine.execStrikeSpacingExpiry s
  | .hammerFire => Sys2Proof.Machine.execHammerFire s
  | .recoveringEnd => Sys2Proof.Machine.execRecoveringEnd s
  | .wheelIndexFound sensors => Sys2Proof.Machine.execWheelIndexFound sensors s
  | .wheelRehomeFail carriageAt => Sys2Proof.Machine.execWheelRehomeFail carriageAt s
  | .carriageHomeFound => Sys2Proof.Machine.execCarriageHomeFound s
  | .carriageRehomeFail => Sys2Proof.Machine.execCarriageRehomeFail s
  | .firstHomingEnd => Sys2Proof.Machine.execFirstHomingEnd s
  | .coverSample isOpen carriageAt fed => Sys2Proof.Machine.execCoverSample isOpen carriageAt fed s
  | .feedComplete => Sys2Proof.Machine.execFeedComplete s
  | .pauseExpiry => Sys2Proof.Machine.execPauseExpiry s
  | .motorRestExpiry => Sys2Proof.Machine.execMotorRestExpiry s
  | .wakeFromRest => Sys2Proof.Machine.execWakeFromRest s
  | .idleFollow steps => Sys2Proof.Machine.execIdleFollow steps s
  | .checkBegin => Sys2Proof.Machine.execCheckBegin s
  | .verdictDelivery => Sys2Proof.Machine.execVerdictDelivery s
  | .addRequestBegin => Sys2Proof.Machine.execAddRequestBegin s
  | .addRequestEnd => Sys2Proof.Machine.execAddRequestEnd s
  | .noticeWrite => Sys2Proof.Machine.execNoticeWrite s
  | .noticeTakenReread => Sys2Proof.Machine.execNoticeTakenReread s
  | .mirrorTick => Sys2Proof.Machine.execMirrorTick s
  | .blinkPhaseChange => Sys2Proof.Machine.execBlinkPhaseChange s
  | .displayTransferBegin => Sys2Proof.Machine.execDisplayTransferBegin s
  | .displayTransferComplete => Sys2Proof.Machine.execDisplayTransferComplete s
  | .messageTimerExpiry => Sys2Proof.Machine.execMessageTimerExpiry s
  | .toneIntervalExpiry => Sys2Proof.Machine.execToneIntervalExpiry s
  | .parkMoveEnd => Sys2Proof.Machine.execParkMoveEnd s

end Sys2Proof.Machine
end

