-- ==== Sys2Proof/Machine/TimeBase.lean ====
section
/-! DEFINITION. The Time Base (R154, R155): what step does on an empty queue. The tick counts, and what falls due at it is put into the queue; then the tick's moment passes. -/
namespace Sys2Proof.Machine

/-- A running timer with a millisecond less to run. -/
def countDown : Option Nat → Option Nat
  | some n => some (n - 1)
  | none => none

/-- The rest timer counts only while its conditions hold, and else keeps its count (R155). -/
def countRest (s : State) : Option Nat :=
  if restConditions s then s.tmb.rest.map (fun n => n + 1) else s.tmb.rest

/-- The timers after one tick (R155). The time of a pause stopped by a FAULT stands (R80) until PAUSING is entered again: in
the REHOME homing, and in the PARKED of a cover opening that interrupts that homing too (DEDUCED, notes/assumptions/26.md). -/
def countTimers (s : State) : Tmb :=
  { ticks := s.tmb.ticks + 1, onTick := true, settle := countDown s.tmb.settle, spacing := countDown s.tmb.spacing
    pause := if s.pmc.pauseFrozen then s.tmb.pause else countDown s.tmb.pause
    rest := countRest s, message := countDown s.tmb.message, tone := countDown s.tmb.tone }

/-- A command that falls due on a condition. -/
def dueIf (b : Bool) (c : Instr) : List Instr := if b then [c] else []

/-- The expiries that fall due at a tick (R155). -/
def dueExpiries (s : State) : List Instr :=
  dueIf (ranOut s.tmb.settle) .settleExpiry ++ dueIf (ranOut s.tmb.spacing) .strikeSpacingExpiry ++
    dueIf (ranOut s.tmb.pause) .pauseExpiry ++ dueIf (restOver s) .motorRestExpiry ++
    dueIf (ranOut s.tmb.message) .messageTimerExpiry ++ dueIf (ranOut s.tmb.tone) .toneIntervalExpiry

/-- The period marks on this tick: the count reaches a multiple of the length (R154). -/
def periodMark (s : State) (length : Nat) : Bool := decide (s.tmb.ticks % length = 0)

/-- The cover switch as it was last seen (notes/assumptions/3.md): the sender gives any other reading itself. -/
def lastCover (s : State) : Bool := s.pmc.lastSample.getD s.pmc.coverOpen

/-- The requesters of the RAM port whose work is marked at a tick (R138, R154): the mirror every 10 ms, NTW and KLR at the
list poll every 20 ms. -/
def portMarks (s : State) : List Requester :=
  (if periodMark s 10 then [.mirror] else []) ++ (if periodMark s 20 then [.ntw, .klr] else [])

/-- The command that a requester's mark at a tick starts: LIST_POLL is NTW's re-read and KLR's after it. -/
def markedWork : Requester → List Instr
  | .ntw => [.listPoll]
  | .mirror => [.mirrorTick]
  | .hostPort | .lst | .klr | .spc => []

/-- The work that the period marks of a tick start (R154). What reaches the RAM port is queued in the arbiter's order of
grant, the mirror last (R138). DESIGN CHOICE (notes/assumptions/3.md): the link transfer comes before the cover sample, the
RAM work and the blink change. -/
def dueMarks (s : State) : List Instr :=
  [.displayTransferBegin, .displayTransferComplete] ++
    dueIf (periodMark s 8) (.coverSample (lastCover s) (s.pmc.carriage.getD 0) 0) ++
    (grantOrder 6 (portMarks s)).flatMap markedWork ++ dueIf (periodMark s 500) .blinkPhaseChange

/-- Time passes (R154, R155, notes/assumptions/3.md): from a tick to a moment after it, and from there to the next tick, which
falls due what it does; while the RESET pin is asserted no tick is made (R156). -/
def tick (s : State) : State :=
  if s.hpa.resetPin then s
  else if s.tmb.onTick then s.withTmb { s.tmb with onTick := false }
  else
    let t := s.withTmb (countTimers s)
    t.withPending (t.pending ++ (dueExpiries t ++ dueMarks t))

end Sys2Proof.Machine
end

