-- ==== Sys2Proof/Safety.lean ====
section
/-! DEFINITION. The invariants of the part: what holds in the state after reset and what every step keeps. -/
namespace Sys2Proof.Machine

/-- The RAM's list is in canonical form (INVENTORY.md, 'Memory and ordering'). -/
def MemoryCanonical (s : State) : Prop := Memory.wf s.ram = true

/-- The Display Image is the one of the sources as they stand (R124). -/
def ImageCurrent (s : State) : Prop := s.dsp.image = imageOf s

/-- The cursor place lies within the window as the window follow leaves it (R128). -/
def WindowFollows (s : State) : Prop :=
  let i := cursorIndex (visualRow s.lst.cells) s.lst.step
  i ≤ s.dsp.windowStart + 29 ∧ (s.dsp.windowStart = 0 ∨ s.dsp.windowStart + 2 ≤ i)

/-- The queues hold no more than they can: TAQ 64 (R49), the Work List 16 (R59), the Word Check Queue 4 (R108). -/
def QueuesBounded (s : State) : Prop := s.taq.length ≤ 64 ∧ s.pmc.work.length ≤ 16 ∧ s.spc.queue.length ≤ 4

/-- The entries of a tag in CMM. -/
def entriesOf (t : Half) (cmm : List Entry) : List Entry := cmm.filter (fun e => decide (e.tag = t))

/-- The Line Store holds at most 160 cells (R4), CMM at most 256 entries (R86), none of them of the present platen tag
(R87) and at most 160 of any one tag (R21). -/
def LinesBounded (s : State) : Prop :=
  s.lst.cells.length ≤ 160 ∧ s.cmm.length ≤ 256 ∧ entriesOf s.lst.platenTag s.cmm = [] ∧
    ∀ t, (entriesOf t s.cmm).length ≤ 160

/-- The cells' identities, by which operations name them (R59, R60), tell them apart, no operation names a composed cell
(R2), and outside a release the cursor is a number from 0 to the number of composed cells (R14). -/
def CellsIdentified (s : State) : Prop :=
  (s.lst.cells.map Cell.id).Nodup ∧ (∀ c, c ∈ s.lst.cells → c.id < s.lst.nextId) ∧
    (∀ o id, o ∈ s.pmc.work → o.body.cell? = some id →
      id < s.lst.nextId ∧ ∀ c, c ∈ composedCells s → c.id ≠ id) ∧
    ((∀ b, s.lst.conv ≠ .releasing b) → s.lst.cursor ≤ (composedCells s).length)

/-- The composed cells are the tail of the list (R4), and there are none outside line mode (R14, R22). -/
def ComposedTail (s : State) : Prop :=
  s.lst.cells = settledCells s ++ composedCells s ∧ (composedCells s ≠ [] → s.lst.mode.line = true)

/-- The kinds of action a conversion in progress belongs to: a RETURN, an INDEX or a space in the hot zone that waits to close
(R8, R17, R19), a RETURN or a MODE that releases (R18, R22), an ERASE that walks (R89). -/
def Conversion.suits : Conversion → KeyKind → Bool
  | .idle, _ => true
  | .spelling, k => decide (k = .ret)
  | .draining begun, k => decide (k = .ret) || (!begun && decide (k = .index ∨ k = .char))
  | .releasing closes, k => decide (k = if closes then .ret else .mode)
  | .erasing _, k => decide (k = .erase)

/-- A conversion in progress is that of the action at the head of TAQ (R6, R50). -/
def ConversionAtHead (s : State) : Prop :=
  s.lst.conv = .idle ∨ ∃ a rest, s.taq = a :: rest ∧ s.lst.conv.suits a.kind = true

/-- The PRINTs (false) and LIFTs (true) of a cell on the Work List, front first. -/
def strikesOn (id : Nat) (work : List Operation) : List Bool :=
  work.filterMap (fun o => match o.body with
    | .print c _ _ _ => if c = id then some false else none
    | .lift c _ _ _ _ => if c = id then some true else none
    | .feed _ | .pause _ | .mark _ _ => none)

/-- The operations a cell's state goes with (R2, R92): one PRINT for QUEUED, one LIFT for LIFT_PENDING, behind a PRINT that was
in flight, and none otherwise; a blank cell has none. -/
def Cell.tied (work : List Operation) (c : Cell) : Prop :=
  match c.state with
  | .queued => c.blank = .no ∧ strikesOn c.id work = [false]
  | .liftPending => c.blank = .no ∧ (strikesOn c.id work = [true] ∨ strikesOn c.id work = [false, true])
  | .printed | .composed => strikesOn c.id work = []

/-- QUEUED and LIFT_PENDING cells are tied to their operations, and an operation to a cell of the list (R2, R59). -/
def CellsTied (s : State) : Prop :=
  (∀ c, c ∈ s.lst.cells → c.tied s.pmc.work) ∧
    ∀ o id, o ∈ s.pmc.work → o.body.cell? = some id → ∃ c, c ∈ s.lst.cells ∧ c.id = id

/-- The unused bits of the registers are 0, no action bit of Command is stored (section 8.5, R139), and no request is left at
the RAM port (R138, notes/assumptions/11.md). -/
def RegistersClean (s : State) : Prop :=
  s.hpa.command &&& 0xF6 = 0 ∧ s.hpa.event &&& 0xC0 = 0 ∧ s.hpa.eventEnable &&& 0xC0 = 0 ∧ s.hpa.portRequests = []

/-- Every host access to come is one the port makes (R137). -/
def ComingServable (s : State) : Prop := ∀ c, c ∈ s.hpa.coming → c.access.wellFormed = true

/-! ### The Notice Holding Queue and the add requests (R120, R150) -/

/-- The notices the reader may still post in a stall (R150): LIST_BAD, at a re-read. -/
def klrMayPost (s : State) : Nat :=
  match s.klr.state with
  | .taking | .heldFull | .atEnd => 1
  | .stopped | .fetch | .bad => 0

/-- The notices LST may still post in a stall (R150): of a conversion that has begun. -/
def lstMayPost (s : State) : Nat :=
  match s.lst.conv with
  | .releasing _ => 1
  | .draining begun => begun.toNat
  | .erasing w => w.acted.toNat
  | .idle | .spelling => 0

/-- A LIFT in flight stands at the front, whose tape test may still post LIFT_FAILED (R63, R99). -/
def liftInFlight (s : State) : Nat :=
  match s.pmc.work.head? with
  | some { body := .lift _ _ _ _ _, started := true, struck := _, fed := _ } => 1
  | _ => 0

/-- The notices of homings PMC may still post in a stall (R150, R83): FAULT once, and HOMED before it in the first homing, at
the end of its move to the margin, and the REHOME homing. A REHOME is not begun in a stall, so FAULT posts no more. -/
def homingsMayPost (s : State) : Nat :=
  match s.pmc.state with
  | .unhomed => 2
  | .homing =>
    match s.pmc.homing with
    | some { kind := .first, part := _ } | some { kind := .rehome, part := _ } | some { kind := _, part := .toMargin _ } => 2
    | some { kind := _, part := .carriage } | some { kind := _, part := .wheel } | none => 1
  | .parked =>
    match s.pmc.parked with
    | some (.homing .first) | some (.homing .rehome) => 2
    | some (.homing .close) | some (.homing .wake) | some .nothing | some .operation | none => 1
  | .fault => 0
  | .ready | .moving | .striking | .recovering | .pausing | .feeding | .resting | .held => 1

/-- The notices PMC may still post in a stall. -/
def pmcMayPost (s : State) : Nat := if s.pmc.state = .fault then 0 else homingsMayPost s + liftInFlight s

/-- The notices SPC may still post in a stall (R150): of the check in flight and of an add request begun. -/
def spcMayPost (s : State) : Nat :=
  s.spc.flight.isSome.toNat + (s.spc.requests.filter (fun q => q.finding.isSome)).length

/-- Only the front operation is started (R60, R62), and SPC has one job at a time: the check in flight or the front request
(R115, R120). -/
def OneJobEach (s : State) : Prop :=
  (∀ o, o ∈ s.pmc.work.tail → o.started = false) ∧ (∀ q, q ∈ s.spc.requests.tail → q.finding = none) ∧
    (s.spc.flight.isSome = true → ∀ q, q ∈ s.spc.requests → q.finding = none)

/-- The Notice Holding Queue, with what work in flight may still add to it, holds no more than 8 entries (R150); and before
the first RUN after a reset PMC is UNHOMED, so that the first homing begins from there alone (R158). -/
def NoticesBounded (s : State) : Prop :=
  OneJobEach s ∧ (s.klr.ran = false → s.pmc.state = .unhomed) ∧ s.ntw.holding.length + klrMayPost s + lstMayPost s + pmcMayPost s + spcMayPost s ≤ 8

/-- At most two add requests are pending: with requests pending, they, the Last Miss and the check in flight are at most two
(R120). -/
def RequestsBounded (s : State) : Prop :=
  s.spc.requests = [] ∨
    s.spc.requests.length + s.spc.lastMiss.isSome.toNat + s.spc.flight.isSome.toNat ≤ 2

/-! ### Ranges and the mechanism -/

/-- Stops rise strictly from a position on. -/
def stopsRise : List Nat → Bool
  | [] => true
  | [_] => true
  | a :: b :: r => decide (a < b) && stopsRise (b :: r)

/-- The margins, pitches, zones and the set of stops lie in the ranges of R24. -/
def EscLimits (s : State) : Prop :=
  s.esc.lm ≤ 3119 ∧ s.esc.lm + 240 ≤ s.esc.rm ∧ s.esc.rm ≤ 3359 ∧ 128 ≤ s.esc.customPitch ∧ s.esc.customPitch ≤ 640 ∧
    32 ≤ s.esc.unitSize ∧ s.esc.unitSize ≤ 96 ∧ s.esc.hotZone ≤ 480 ∧ s.esc.bellDistance ≤ 480 ∧
    s.esc.tabs.length ≤ 16 ∧ stopsRise s.esc.tabs = true

/-- ESC's quantities lie in the ranges of R24 and R36: its limits, the fraction F and every stop. -/
def EscInRange (s : State) : Prop := EscLimits s ∧ s.esc.frac ≤ 15 ∧ ∀ t, t ∈ s.esc.tabs → t ≤ 3359

/-- A step from 0 to 3359 with a fraction from 0 to 15 (00_scope.md, Conventions). -/
def Point.inRange (pt : Point) : Prop := pt.step ≤ 3359 ∧ pt.frac ≤ 15

/-- Everything on the line lies on the paper: the print point, the cells, the entries of CMM and the compose origin, which
composed cells always have; and outside a release the composed cells stand as laid out from it (R1, R14, R15, R85). -/
def LineInRange (s : State) : Prop :=
  (point s).inRange ∧
    (∀ c, c ∈ s.lst.cells → c.start + c.advance ≤ 3359 ∧ c.fBefore ≤ 15 ∧ c.fAfter ≤ 15) ∧
    (∀ e, e ∈ s.cmm → e.start + e.advance ≤ 3359 ∧ e.fBefore ≤ 15 ∧ e.fAfter ≤ 15) ∧
    (∀ o, s.lst.composeOrigin = some o → o.inRange) ∧ (composedCells s ≠ [] → s.lst.composeOrigin ≠ none) ∧
    ((∀ b, s.lst.conv ≠ .releasing b) → layOut s.esc.tabs (originOf s) (composedCells s) = some (composedCells s))

/-- READY and RESTING never stand with a hold reason present, and HELD never without one (R75, R76). -/
def HoldsRight (s : State) : Prop :=
  (s.pmc.state = .ready ∨ s.pmc.state = .resting → holdReason s = false) ∧ (s.pmc.state = .held → holdReason s = true)

/-- The operation in flight is started (R61). -/
def frontStarted (s : State) : Bool :=
  match front s with
  | some o => o.started
  | none => false

/-- The carriage stands at the front operation's start, and the trusted wheel at its petal (R66, R67). -/
def aimed (s : State) : Bool :=
  match frontGoal s with
  | some (st, pt) => decide (s.pmc.carriage = some st) && decide (s.pmc.wheel = some pt) && s.pmc.wheelTrusted
  | none => false

/-- The carriage, once arrived, stands at the start; the wheel, once arrived, at the petal (R64). -/
def arrivedRight (s : State) : Bool :=
  match frontGoal s with
  | some (st, pt) =>
    (!s.pmc.carriageArrived || decide (s.pmc.carriage = some st)) &&
      (!s.pmc.wheelArrived || (decide (s.pmc.wheel = some pt) && s.pmc.wheelTrusted))
  | none => false

/-- What holds of a mechanism in MOVING: its operation is in flight, arrivals are true, the settle runs or is over only
after both arrivals, and a slip re-home runs only before the wheel's (R64 to R66). -/
def movingRight (s : State) : Bool :=
  frontStarted s && arrivedRight s && (s.tmb.settle.isNone || (s.pmc.carriageArrived && s.pmc.wheelArrived)) &&
    (!s.pmc.settled || (s.pmc.carriageArrived && s.pmc.wheelArrived && s.tmb.settle.isNone)) &&
    (!s.pmc.slipHoming || !s.pmc.wheelArrived)

/-- STRIKING and RECOVERING stand only over a started PRINT or LIFT with the carriage at its start and the trusted wheel
at its petal; MOVING as R64 to R66 lead there; the settle timer runs in MOVING alone; and before the first RUN after a
reset PMC is UNHOMED (R84, R158). -/
def StrikesAimed (s : State) : Prop :=
  (s.klr.ran = false → s.pmc.state = .unhomed) ∧
  match s.pmc.state with
  | .moving => movingRight s = true
  | .striking | .recovering => frontStarted s = true ∧ aimed s = true ∧ s.tmb.settle = none
  | .unhomed | .homing | .ready | .pausing | .feeding | .resting | .parked | .held | .fault => s.tmb.settle = none

/-- The first tick at which at least 30 ms have passed since a fire (R66, R155): the 30th after a fire on a tick, the 31st after
a fire between two ticks (notes/assumptions/4.md). -/
def Fire.spacingEnds (f : Fire) : Nat := f.tick + if f.onTick then 30 else 31

/-- The strike spacing timer, from each fire on, covers the 30 ms to the next: its ticks left reach the tick that ends them, and
once it has run out that tick has come (R66, R155). -/
def FiresSpaced (s : State) : Prop :=
  ∀ f, s.pmc.lastFire = some f → f.spacingEnds ≤ s.tmb.ticks + s.tmb.spacing.getD 0

/-- The image and the Sent Image have 40 cells, the link pointer names one, and the window start is a multiple of 8
(R124, R128, R132). -/
def DisplayShaped (s : State) : Prop :=
  s.dsp.image.length = 40 ∧ s.dsp.sent.length = 40 ∧ s.dsp.linkPtr < 40 ∧ s.dsp.windowStart % 8 = 0 ∧
    (match s.dsp.message with
     | some codes => codes.length = 32
     | none => True)

end Sys2Proof.Machine
end

