-- ==== Sys2Proof/Certificates/Slice0/Obligations.lean ====
section
/-! DEFINITION. The statements for the provers. Each name says what its statement says; the words shared by several statements come first. -/
namespace Sys2Proof.Machine

/-! ### Words shared by the statements -/

/-- The blocks of State. -/
inductive Block where
  | hpa | klr | taq | lst | esc | settings | pmc | cmm | spc | dsp | ntw | tmb | ram | pending
  deriving DecidableEq, Repr

/-- A block of one state is that of another. Of DSP the image and the window start are left out, since DSP recomputes
them at the end of a step (R124); the RAM is compared by reading every address. -/
def BlockKept (s t : State) : Block → Prop
  | .hpa => t.hpa = s.hpa
  | .klr => t.klr = s.klr
  | .taq => t.taq = s.taq
  | .lst => t.lst = s.lst
  | .esc => t.esc = s.esc
  | .settings => t.settings = s.settings
  | .pmc => t.pmc = s.pmc
  | .cmm => t.cmm = s.cmm
  | .spc => t.spc = s.spc
  | .dsp => t.dsp = { s.dsp with image := t.dsp.image, windowStart := t.dsp.windowStart }
  | .ntw => t.ntw = s.ntw
  | .tmb => t.tmb = s.tmb
  | .ram => ∀ a, Memory.read t.ram a = Memory.read s.ram a
  | .pending => t.pending = s.pending

/-- The frame of a step: every block but those listed is kept. -/
def OnlyChanges (bs : List Block) (s t : State) : Prop := ∀ b, b ∉ bs → BlockKept s t b

/-- The command answers a next state, and that state is as the last argument says. -/
def Completes (i : Instr) (s : State) (holds : State → Prop) : Prop := ∃ t, exec i s = .next t ∧ holds t

/-- The command answers the very state it began in. -/
def ChangesNothing (i : Instr) (s : State) : Prop := exec i s = .next s

/-- The RESET pin is not asserted (R156). -/
def Powered (s : State) : Prop := s.hpa.resetPin = false

/-- No stall: the Notice Holding Queue holds fewer than 2 entries (R150). -/
def NoStall (s : State) : Prop := s.ntw.holding.length < 2

/-- The bytes stand at an address and on, and every other address of the RAM reads as before. -/
def StoredAt (a : Nat) (vs : List Byte) (s t : State) : Prop :=
  (∀ i v, vs[i]? = some v → ramByte t (a + i) = v) ∧
    ∀ b, (∀ i, i < vs.length → b ≠ (a + i) % Config.ramSize) → Memory.read t.ram b = Memory.read s.ram b

/-- The two bytes of a 16-bit field, least significant first (00_scope.md, Conventions). -/
def halfBytes (v : Half) : List Byte := [lowByte v, highByte v]

/-- An action of a kind stands at the head of TAQ and the conditions of R6 hold. -/
def HeadConverts (k : KeyKind) (a : Action) (rest : List Action) (s : State) : Prop :=
  Powered s ∧ s.taq = a :: rest ∧ a.kind = k ∧ s.pmc.everReady = true ∧ NoStall s ∧ s.lst.conv = .idle

/-- A cell without its spelling mark and word number, which SPC writes (R3). -/
def Cell.unspelled (c : Cell) : Cell := { c with mark := .unmarked, wordNo := 0 }

/-- The tone after a request (R135). -/
def toneAfter (p : Pattern) (s : State) : Option Tone :=
  if faultSounding s && decide (p ≠ .fault) then s.dsp.tone else some { pattern := p, interval := 0 }

/-- The ticks a timer of so many ms runs when it is started now (R155, the figures of R66 and R67): as many from a start on a
tick; one more from a start between two ticks, since at that many less than its length has passed. -/
def ticksOf (s : State) (ms : Nat) : Option Nat := if s.tmb.onTick then some ms else some (ms + 1)

/-- The count of the motor rest timer when it begins from 0 (R78, R155): a start on a tick counts that tick
(notes/assumptions/4.md). -/
def freshRest (s : State) : Option Nat := if s.tmb.onTick then some 1 else some 0

/-- The tone's interval after a request (R134, R135). -/
def toneTimerAfter (p : Pattern) (s : State) : Option Nat :=
  if faultSounding s && decide (p ≠ .fault) then s.tmb.tone else (patternSeries p).head?.bind (ticksOf s)

/-- DSP but for its tone, its message and what it recomputes. -/
def DspKept (s t : State) : Prop :=
  t.dsp = { s.dsp with
    image := t.dsp.image, windowStart := t.dsp.windowStart, tone := t.dsp.tone, message := t.dsp.message }

/-- The action at the head is refused with a reason (R55, R6): one REFUSED notice, the head gone, the hold flag cleared
but for a RETURN, the REFUSE tone for the toned reasons, and no other change than a message ended by a CHAR (R131). That a
refused action leaves the rest timer as it is is the model's choice (notes/assumptions/17.md). -/
def RefusedWith (r : Reason) (tag : Half) (a : Action) (rest : List Action) (s t : State) : Prop :=
  t.ntw = { s.ntw with holding := s.ntw.holding ++ [
    { kind := .refused, ragged := false, detail := r.toByte, origin := a.origin, tag := tag, position := a.seq }] } ∧
  t.taq = rest ∧
  t.lst = { s.lst with conv := .idle, holdFlag := if a.kind = .ret then s.lst.holdFlag else false } ∧
  t.dsp.tone = (if r.toned then toneAfter .refuse s else s.dsp.tone) ∧
  t.dsp.message = (if a.kind = .char then none else s.dsp.message) ∧
  t.tmb = { s.tmb with
    tone := if r.toned then toneTimerAfter .refuse s else s.tmb.tone
    message := if a.kind = .char then none else s.tmb.message } ∧
  DspKept s t ∧ OnlyChanges [.ntw, .taq, .lst, .dsp, .tmb] s t

/-- The bell test on a new point (R34): whether it rings. -/
def bellRings (s : State) (p : Nat) : Bool :=
  decide (0 < s.esc.bellDistance) && !s.esc.bellFlag && decide (s.esc.rm - s.esc.bellDistance ≤ p)

/-- The fields of ESC and the tone after a conversion moved the point to a new place and made the bell test (R34). -/
def BellTested (s t : State) (pt : Point) : Prop :=
  t.esc = { s.esc with frac := pt.frac, bellFlag := s.esc.bellFlag || bellRings s pt.step } ∧
    t.dsp.tone = (if bellRings s pt.step then toneAfter .bell s else s.dsp.tone) ∧
    t.tmb.tone = (if bellRings s pt.step then toneTimerAfter .bell s else s.tmb.tone)

end Sys2Proof.Machine

open Sys2Proof Sys2Proof.Machine

/-! ### The queue, totality, RESET -/

/-- A step takes the command at the front of the queue and runs it on the state with the queue's rest. -/
def Obligations.StepRunsFrontCommand : Prop :=
  ∀ (c : Instr) (rest : List Instr) (s : State), s.pending = c :: rest → step s = exec c (s.withPending rest)

/-- The rest timer counts: in READY with the Work List empty, the carriage at the print point and a rest time (R78). -/
def RestCounts (s : State) : Prop :=
  s.pmc.state = .ready ∧ s.pmc.work = [] ∧ s.pmc.carriage = some s.lst.step ∧ s.settings.restSeconds ≠ 0

/-- On an empty queue a step lets time pass (the model's choice, notes/assumptions/3.md). On a tick it goes on to a moment between
that tick and the next, and nothing else changes. Between two ticks it is the next tick of the Time Base: the tick and
the running timers count (the rest timer under its own conditions, notes/assumptions/17.md; a frozen pause stands, R80), what
falls due joins the queue, a list poll before the mirror (R138), no other block changes. With RESET asserted nothing does. That
a rest time of n ms is over at a count above n is DEDUCED from R155 (notes/assumptions/4.md). -/
def Obligations.IdleStepLetsTimePass : Prop :=
  ∀ s : State, s.pending = [] →
    (s.hpa.resetPin = true → step s = .next s) ∧
    (s.hpa.resetPin = false → s.tmb.onTick = true →
      ∃ t, step s = .next t ∧ t.tmb = { s.tmb with onTick := false } ∧ OnlyChanges [.tmb] s t) ∧
    (s.hpa.resetPin = false → s.tmb.onTick = false → ∃ t, step s = .next t ∧ OnlyChanges [.tmb, .pending] s t ∧
      t.tmb.ticks = s.tmb.ticks + 1 ∧ t.tmb.onTick = true ∧
      t.tmb.settle = s.tmb.settle.map (fun n => n - 1) ∧ t.tmb.spacing = s.tmb.spacing.map (fun n => n - 1) ∧
      t.tmb.message = s.tmb.message.map (fun n => n - 1) ∧ t.tmb.tone = s.tmb.tone.map (fun n => n - 1) ∧
      (s.pmc.pauseFrozen = false → t.tmb.pause = s.tmb.pause.map (fun n => n - 1)) ∧
      (s.pmc.pauseFrozen = true → t.tmb.pause = s.tmb.pause) ∧
      (RestCounts s → t.tmb.rest = s.tmb.rest.map (fun n => n + 1)) ∧ (¬ RestCounts s → t.tmb.rest = s.tmb.rest) ∧
      (.settleExpiry ∈ t.pending ↔ t.tmb.settle = some 0) ∧ (.pauseExpiry ∈ t.pending ↔ t.tmb.pause = some 0) ∧
      (.strikeSpacingExpiry ∈ t.pending ↔ t.tmb.spacing = some 0) ∧
      (.messageTimerExpiry ∈ t.pending ↔ t.tmb.message = some 0) ∧
      (.toneIntervalExpiry ∈ t.pending ↔ t.tmb.tone = some 0) ∧
      (.motorRestExpiry ∈ t.pending ↔ RestCounts t ∧ ∃ n, t.tmb.rest = some n ∧ 1000 * t.settings.restSeconds < n) ∧
      .displayTransferBegin ∈ t.pending ∧ .displayTransferComplete ∈ t.pending ∧
      (∀ i j : Nat, t.pending[i]? = some Instr.listPoll → t.pending[j]? = some Instr.mirrorTick → i < j) ∧
      ((∃ o c f, .coverSample o c f ∈ t.pending) ↔ t.tmb.ticks % 8 = 0) ∧ (.mirrorTick ∈ t.pending ↔ t.tmb.ticks % 10 = 0) ∧
      (.listPoll ∈ t.pending ↔ t.tmb.ticks % 20 = 0) ∧ (.blinkPhaseChange ∈ t.pending ↔ t.tmb.ticks % 500 = 0))

/-- Every command but a host access to RAM answers a next state in every state, and no command touches the queue. -/
def Obligations.CommandsAnswerAndKeepQueue : Prop :=
  ∀ (i : Instr) (s : State),
    ((∀ x, i ≠ .hostRamAccess x) → ∃ t, exec i s = .next t) ∧ (∀ t, exec i s = .next t → t.pending = s.pending)

/-- While the RESET pin is asserted every command but the pin's own and a host access changes nothing, the registers
read their power-on values and the interrupt line is released (R156, R137). -/
def Obligations.AssertedResetHoldsThePart : Prop :=
  ∀ (i : Instr) (s : State), s.hpa.resetPin = true →
    (i ≠ .resetAssert → i ≠ .resetRelease → (∀ x, i ≠ .hostRamAccess x) → exec i s = .next s) ∧
    interruptLine s = false ∧ ∀ n, n < 4 → readRegister s n = some 0

/-! ### Invariants -/

/-- Every step keeps the RAM in canonical form. -/
def Obligations.MemoryCanonicalKept : Prop :=
  ∀ s t : State, MemoryCanonical s → step s = .next t → MemoryCanonical t

/-- The visual row (R125): of each start the cell nearest the end of the list, by ascending start. -/
def RowOf (cells row : List Cell) : Prop :=
  row.Pairwise (fun c d => c.start < d.start) ∧
    ∀ c, c ∈ row ↔ ∃ before after, cells = before ++ c :: after ∧ ∀ d, d ∈ after → d.start ≠ c.start

/-- The cursor index (R126): the entries before it start before the print point's step, the others do not. -/
def CursorAt (row : List Cell) (p i : Nat) : Prop :=
  i ≤ row.length ∧ ∀ j c, row[j]? = some c → (j < i ↔ c.start < p)

/-- An entry that is not the cursor place, as it is shown (R127). -/
def entryShown (blinkOn : Bool) (c : Cell) : ImageCell :=
  if c.mark = .miss then { code := if blinkOn then c.code else 0x20, attr := .miss }
  else { code := c.code, attr := if c.state = .queued ∨ c.state = .liftPending then .unstruck else .normal }

/-- The entry at a place of the visual row with its cursor place (R126, R127): the cursor lies on the entry at the print
point's step, or a cursor entry is inserted. -/
def rowShown (blinkOn : Bool) (row : List Cell) (p i k : Nat) : Option ImageCell :=
  match row[i]? with
  | some c =>
    if c.start = p then (if k = i then some { code := c.code, attr := .cursor } else row[k]?.map (entryShown blinkOn))
    else if k = i then some { code := 0x20, attr := .cursor }
    else (row[if k < i then k else k - 1]?).map (entryShown blinkOn)
  | none =>
    if k = i then some { code := 0x20, attr := .cursor } else (row[if k < i then k else k - 1]?).map (entryShown blinkOn)

/-- The status field (R129, R40): cells 32 to 39. -/
def StatusShown (s : State) : Prop :=
  let column := if s.lst.step < s.esc.lm then 0 else (s.lst.step - s.esc.lm) / 24 + 1
  let letter : Byte := match s.esc.pitch with
    | .p10 => 0x30 | .p12 => 0x32 | .p15 => 0x35 | .custom => 0x43 | .ps => 0x50
  let needsTypist := s.pmc.state = .held ∨ s.pmc.state = .parked ∨ s.pmc.state = .fault
  ∃ (hundreds tens units : Nat) (alert : Byte), hundreds < 10 ∧ tens < 10 ∧ units < 10 ∧
    column % 1000 = 100 * hundreds + 10 * tens + units ∧
    (needsTypist → alert = 0x21) ∧ (¬ needsTypist → s.spc.lastMiss ≠ none → alert = 0x3F) ∧
    (¬ needsTypist → s.spc.lastMiss = none → alert = 0x20) ∧
    s.dsp.image.drop 32 =
      [if s.lst.mode.line then 0x4C else 0x44, if s.lst.mode.justify then 0x4A else 0x20, letter, 0x20,
        BitVec.ofNat 8 (0x30 + hundreds), BitVec.ofNat 8 (0x30 + tens), BitVec.ofNat 8 (0x30 + units), alert].map
        (fun b => ({ code := b, attr := .normal } : ImageCell))

/-- What a Display Image of its sources shows (R125 to R130): a message, or the window over the visual row with its cursor
place; and the status field. -/
def ImageShows (s : State) : Prop :=
  ∃ (row : List Cell) (i : Nat), RowOf s.lst.cells row ∧ CursorAt row s.lst.step i ∧
    (s.dsp.message = none → StatusShown s ∧ ∀ k, k < 32 → s.dsp.image[k]? = some
      ((rowShown s.dsp.blinkOn row s.lst.step i (s.dsp.windowStart + k)).getD { code := 0x20, attr := .normal })) ∧
    (∀ codes, s.dsp.message = some codes → codes.length = 32 → StatusShown s ∧
      ∀ (k : Nat) (c : Byte), codes[k]? = some c → s.dsp.image[k]? = some { code := c, attr := .normal }) ∧
    (WindowFollows s → i ≤ s.dsp.windowStart + 29 ∧ (s.dsp.windowStart = 0 ∨ s.dsp.windowStart + 2 ≤ i))

/-- Every step keeps the Display Image that of its sources (R124), and such an image shows what R125 to R130 say. -/
def Obligations.ImageCurrentKept : Prop :=
  ∀ s : State, ImageCurrent s → ImageShows s ∧ ∀ t, step s = .next t → ImageCurrent t

/-- Every step keeps TAQ within 64 actions, the Work List within 16 operations and the Word Check Queue within 4 words; and
the Line Store within 160 cells and CMM within 256 entries, none of the platen tag in force and at most 160 of a tag; the
Notice Holding Queue, with what work in flight may still add, within 8 entries (R150); and the pending add requests at most
two (R120). -/
def Obligations.QueueAndLineBoundsKept : Prop :=
  (∀ s t : State, step s = .next t → (QueuesBounded s → QueuesBounded t) ∧ (LinesBounded s → LinesBounded t) ∧
    (NoticesBounded s → NoticesBounded t) ∧ (RequestsBounded s → RequestsBounded t)) ∧
  (∀ s : State, NoticesBounded s → s.ntw.holding.length ≤ 8) ∧ ∀ s : State, RequestsBounded s → s.spc.requests.length ≤ 2

/-- While an ERASE walk is in progress an ERASE stands at the head of TAQ (R89, R50). -/
def WalkAtHead (s : State) : Prop := ∀ w, s.lst.conv = .erasing w → ∃ a rest, s.taq = a :: rest ∧ a.kind = .erase

/-- Every step keeps the cells' identities distinct, composed cells out of the Work List, and the cursor of R14 in range; the
composed cells at the tail of the list (R4); QUEUED and LIFT_PENDING cells tied to their operations (R2); and a conversion in
progress with its own kind of action at the head of TAQ (R6, R50), an ERASE for a walk. -/
def Obligations.CellIdentitiesKept : Prop :=
  (∀ s t : State, CellsIdentified s → step s = .next t →
    CellsIdentified t ∧ (ComposedTail s → ComposedTail t) ∧ (CellsTied s → CellsTied t)) ∧
  (∀ s t : State, ConversionAtHead s → step s = .next t → ConversionAtHead t) ∧
  ∀ s : State, ConversionAtHead s → WalkAtHead s

/-- Every step keeps the unused register bits 0, stores no action bit, and leaves no request at the RAM port
(notes/assumptions/11.md); and the host accesses to come are accesses that the port makes (notes/assumptions/42.md). -/
def Obligations.RegisterBitsKept : Prop :=
  ∀ s t : State, step s = .next t → (RegistersClean s → RegistersClean t) ∧ (ComingServable s → ComingServable t)

/-- Every step keeps ESC's quantities in the ranges of R24, F and the stops (R36) among them, and the print point, the cells
and CMM's entries on the paper. F and the stops take the point's and the cells' ranges with them, since they come from there. -/
def Obligations.EscRangesKept : Prop :=
  ∀ s t : State, step s = .next t → (EscLimits s → EscLimits t) ∧
    (CellsIdentified s → ComposedTail s → EscInRange s → LineInRange s → EscInRange t ∧ LineInRange t)

/-- Every step keeps HELD to states with a hold reason, and READY and RESTING to states without (R75, R76). -/
def Obligations.HoldStatesKept : Prop :=
  ∀ s t : State, HoldsRight s → step s = .next t → HoldsRight t

/-- Every step keeps STRIKING and RECOVERING aimed: the carriage at the operation's start, the trusted wheel at its
petal, the operation started (R64 to R67); and the fires spaced: from one to the next at least 30 ms pass (R66, R155), so that
after a fire on a tick the next comes at the 30th tick at the earliest, and after one between two ticks at the 31st. -/
def Obligations.StrikesStayAimed : Prop :=
  ∀ s t : State, step s = .next t → (StrikesAimed s → StrikesAimed t) ∧ (FiresSpaced s → FiresSpaced t ∧
    ∀ f g, s.pmc.lastFire = some f → t.pmc.lastFire = some g → f ≠ g →
      (f.onTick = true → f.tick + 30 ≤ g.tick) ∧ (f.onTick = false → f.tick + 31 ≤ g.tick))

/-- Every step keeps the image and the Sent Image at 40 cells and the window start a multiple of 8, and the cursor place
within the window as the window follow of R128 leaves it. -/
def Obligations.DisplayShapeKept : Prop :=
  ∀ s t : State, step s = .next t →
    (DisplayShaped s → DisplayShaped t) ∧ (WindowFollows s → WindowFollows t)

/-- The state after reset has all these invariants. -/
def Obligations.ResetHasTheInvariants : Prop :=
  MemoryCanonical State.reset ∧ ImageCurrent State.reset ∧ WindowFollows State.reset ∧ QueuesBounded State.reset ∧
    LinesBounded State.reset ∧ CellsIdentified State.reset ∧ RegistersClean State.reset ∧ EscInRange State.reset ∧ HoldsRight State.reset ∧
    StrikesAimed State.reset ∧ DisplayShaped State.reset ∧ NoticesBounded State.reset ∧ RequestsBounded State.reset ∧
    ComposedTail State.reset ∧ CellsTied State.reset ∧ ConversionAtHead State.reset ∧ LineInRange State.reset ∧
    FiresSpaced State.reset ∧ ComingServable State.reset

/-! ### Resets (R156, R157, R23, R24, R58, R84, R88, R123, R136, R145, R153) -/

/-- The values of the blocks after reset: those the spec writes, and those DEDUCED from its rules (notes/assumptions/7.md), which
are no clamp notice due, no RUN made, the wheel count not trusted, no homing, slip re-home or park move, READY not yet reached
and no wait for the ring. The values the model chose are left out. -/
def Obligations.ResetValuesOfTheSpec : Prop :=
  let s := State.reset
  s.hpa.command = 0 ∧ s.hpa.event = 0 ∧ s.hpa.eventEnable = 0 ∧ s.hpa.anchorPage = 0 ∧
  s.klr.state = .stopped ∧ s.klr.held = none ∧ s.klr.restart = .fromHead ∧ s.klr.pendingStop = false ∧ s.klr.seq = 0 ∧
  s.taq = [] ∧ s.lst.cells = [] ∧ s.lst.cursor = 0 ∧ s.lst.composeOrigin = none ∧ s.lst.platenTag = 0 ∧
  s.lst.mode.toNat = 0 ∧ s.lst.holdFlag = false ∧ point s = { step := s.esc.lm, frac := 0 } ∧ s.lst.wheelNumber = 0 ∧
  s.esc.pitch = .p10 ∧ s.esc.customPitch = 384 ∧ s.esc.unitSize = 48 ∧ s.esc.lm = 0 ∧ s.esc.rm = 3359 ∧ s.esc.hotZone = 0 ∧
  s.esc.bellDistance = 0 ∧ s.esc.tabs = [] ∧ s.esc.bellFlag = false ∧
  s.pmc.work = [] ∧ s.pmc.state = .unhomed ∧ s.pmc.carriage = none ∧ s.pmc.wheel = none ∧ s.pmc.platen = 0 ∧ s.pmc.retry = 0 ∧
  s.pmc.lastFire = none ∧ holdReason s = false ∧ s.pmc.parked = none ∧ s.pmc.faultReason = .none ∧ s.pmc.strikes = 0 ∧
  s.pmc.lifts = 0 ∧ s.pmc.coverOpen = false ∧ s.cmm = [] ∧
  s.spc.queue = [] ∧ s.spc.flight = none ∧ s.spc.requests = [] ∧ s.spc.openRun = [] ∧ s.spc.lastMiss = none ∧
  s.spc.wordCounter = 0 ∧ s.spc.unchecked = 0 ∧
  s.dsp.sent = List.replicate 40 none ∧ s.dsp.linkPtr = 0 ∧ s.dsp.linkMode = .diff ∧ s.dsp.windowStart = 0 ∧
  s.dsp.message = none ∧ s.dsp.blinkOn = true ∧ s.dsp.tone = none ∧
  s.dsp.image.map ImageCell.code = List.replicate 32 0x20 ++ [0x44, 0x20, 0x30, 0x20, 0x30, 0x30, 0x31, 0x20] ∧
  s.dsp.image.map ImageCell.attr = .cursor :: List.replicate 39 .normal ∧
  s.ntw.holding = [] ∧ s.ntw.produced = 0 ∧ s.ntw.mirrorCount = 0 ∧ s.tmb.ticks = 0 ∧ s.tmb.spacing = none ∧ s.tmb.rest = none ∧
  s.klr.latched = { kind := 0, code := 0, arg := 0 } ∧ s.klr.offset = 0 ∧ s.klr.made = 0 ∧ s.klr.skipped = 0 ∧
  s.klr.keyHead = none ∧ s.klr.settingsPtr = none ∧ s.klr.ran = false ∧ s.klr.clampDue = [] ∧
  s.lst.wheelTable = none ∧ s.lst.conv = .idle ∧ s.esc.frac = 0 ∧
  s.spc.filterBase = none ∧ s.spc.filterOrder = none ∧ s.spc.userList = none ∧
  s.pmc.wheelTrusted = false ∧ s.pmc.motors = .off ∧ s.pmc.supply = .down ∧ s.pmc.homing = none ∧ s.pmc.everReady = false ∧
  s.pmc.slipHoming = false ∧ s.pmc.parkMoving = false ∧
  s.dsp.transfer = none ∧ s.tmb.message = none ∧ s.tmb.tone = none ∧ s.tmb.settle = none ∧ s.tmb.pause = none ∧
  s.ntw.mirrorLast = List.replicate 17 none ∧ s.ntw.lastTaken = none ∧ s.ntw.noticeBase = none ∧ s.ntw.ringWaiting = false

/-- Every block at its reset value, the RAM and the queue as they stood. Most of these values are the spec's (ResetValuesOfTheSpec);
the model's own are the settings before the first Settings read (notes/assumptions/6.md), the current record and the port's last
answer (7.md), the identity counter (8.md) and the sensors as last read (9.md); and that the queue of commands is kept is the
model's too, as it is that the statements below keep the host's accesses to come (31.md). -/
def BlocksReset (s t : State) : Prop :=
  t.klr = Klr.reset ∧ t.taq = [] ∧ t.lst = Lst.reset ∧ t.esc = Esc.reset ∧ t.settings = Settings.reset ∧ t.pmc = Pmc.reset ∧
    t.cmm = [] ∧ t.spc = Spc.reset ∧ t.dsp = Dsp.reset ∧ t.ntw = Ntw.reset ∧ t.tmb = Tmb.reset ∧ t.ram = s.ram ∧
    t.pending = s.pending

/-- RESET_ASSERT and RESET_RELEASE (R156): every block and register at its power-on value, the RAM exactly as it stood;
a release of a pin that is not asserted changes nothing (notes/assumptions/2.md). Which values and what is kept are the
model's own, BlocksReset says (notes/assumptions/6.md, 7.md, 8.md, 9.md, 31.md). -/
def Obligations.PowerOnResetEffect : Prop :=
  ∀ s : State,
    Completes .resetAssert s (fun t => BlocksReset s t ∧ t.hpa = { Hpa.reset with resetPin := true, coming := s.hpa.coming }) ∧
    (s.hpa.resetPin = true → Completes .resetRelease s (fun t =>
      BlocksReset s t ∧ t.hpa = { Hpa.reset with coming := s.hpa.coming })) ∧
    (Powered s → ChangesNothing .resetRelease s)

/-- SOFT_RESET (R157): every block at its reset value, Command and Event 0, Event Enable and Anchor Page kept, the RAM
as it stood. Which values and what is kept are the model's own, BlocksReset says (notes/assumptions/6.md, 7.md, 8.md, 9.md,
31.md). -/
def Obligations.SoftResetEffect : Prop :=
  ∀ s : State, Powered s → Completes .softReset s (fun t => BlocksReset s t ∧
    t.hpa = { Hpa.reset with
      eventEnable := s.hpa.eventEnable, anchorPage := s.hpa.anchorPage, coming := s.hpa.coming })

/-! ### Registers and the host port -/

/-- The commands a byte written to Command stands for (R139): SOFT_RESET alone with bit 5 written 1; else RUN (bit 0) and QUIET
(bit 3) by either value, and WAKE (bit 1), FLUSH (bit 2) and REHOME (bit 4) written 1; each once. Their order, bit 0 first, is
the model's choice (notes/assumptions/25.md). -/
def CommandByteSays (v : Byte) : Prop :=
  (v.getLsbD 5 = true → commandEvents v = [.softReset]) ∧
  (v.getLsbD 5 = false → (commandEvents v).Nodup ∧ ∀ i, i ∈ commandEvents v ↔
    (i = .runStart ∧ v.getLsbD 0 = true) ∨ (i = .runStop ∧ v.getLsbD 0 = false) ∨ (i = .wake ∧ v.getLsbD 1 = true) ∨
    (i = .flush ∧ v.getLsbD 2 = true) ∨ (i = .quietSet ∧ v.getLsbD 3 = true) ∨ (i = .quietClear ∧ v.getLsbD 3 = false) ∨
    (i = .rehome ∧ v.getLsbD 4 = true))

/-- The register space (R137, section 8.5): a byte written at offset 0 to 3 is a write of that register and at any other
offset none; a word is the two bytes (their order the model's choice, notes/assumptions/36.md). -/
def RegisterSpaceSays (v : Byte) (s : State) : Prop :=
  registerEvents 0 v = commandEvents v ∧ registerEvents 1 v = [.eventWrite v] ∧ registerEvents 2 v = [.eventEnableWrite v] ∧
  registerEvents 3 v = [.anchorPageWrite v] ∧ (∀ o, 4 ≤ o → registerEvents o v = [] ∧ readRegister s o = none) ∧
  (∀ o w, registerWordEvents o w = registerEvents o (lowByte w) ++ registerEvents (o + 1) (highByte w)) ∧
  ∀ o l h, readRegister s o = some l → readRegister s (o + 1) = some h → readRegisterWord s o = some (h.append l)

/-- Writes of Command, as the commands they stand for (R139), and of Event, Event Enable and Anchor Page (R140, R141), and the
interrupt line they give. -/
def Obligations.RegisterWritesTakeEffect : Prop :=
  ∀ (v : Byte) (s : State), Powered s →
    CommandByteSays v ∧ RegisterSpaceSays v s ∧
    (∃ t, carryOut exec (commandEvents v) s = .next t ∧
      readRegister t 0 = some (if v.getLsbD 5 then 0 else v &&& 0x09)) ∧
    Completes (.eventWrite v) s (fun t => t.hpa = { s.hpa with event := s.hpa.event &&& v } ∧ OnlyChanges [.hpa] s t ∧
      interruptLine t = decide ((s.hpa.event &&& v) &&& s.hpa.eventEnable ≠ 0)) ∧
    Completes (.eventEnableWrite v) s (fun t => t.hpa = { s.hpa with eventEnable := v &&& 0x3F } ∧ OnlyChanges [.hpa] s t ∧
      interruptLine t = decide (s.hpa.event &&& (v &&& 0x3F) ≠ 0)) ∧
    (runOn s = false →
      Completes (.anchorPageWrite v) s (fun t => t.hpa = { s.hpa with anchorPage := v } ∧ OnlyChanges [.hpa] s t ∧
        anchorBase t = (v.toNat % 128) * 256)) ∧
    (runOn s = true → ChangesNothing (.anchorPageWrite v) s)

/-- Host reads of RAM (R137), served even while the RESET pin is asserted: the byte or the word that the RAM holds,
least significant byte first, is the answer, and nothing else changes. -/
def Obligations.HostReadsAnswerTheRam : Prop :=
  ∀ (a : Half) (s : State), a.toNat < 32768 →
    Completes (.hostRamAccess (.now (.readByte a))) s (fun t =>
      t.hpa = { s.hpa with hostData := (Memory.read s.ram a.toNat).zeroExtend 16 } ∧ OnlyChanges [.hpa] s t) ∧
    (a.toNat % 2 = 0 → Completes (.hostRamAccess (.now (.readWord a))) s (fun t =>
      t.hpa = { s.hpa with hostData := (Memory.read s.ram (a.toNat + 1)).append (Memory.read s.ram a.toNat) } ∧
        OnlyChanges [.hpa] s t))

/-- The host touches NoticeTaken with an access of so many bytes (R152). -/
def TouchesNoticeTaken (s : State) (a width : Nat) : Prop := a < anchorBase s + 18 ∧ anchorBase s + 16 < a + width

/-- Host writes of RAM (R137): the bytes written read back, every other byte reads as before, and NTW, waiting for a full
ring, notes a write that touches NoticeTaken (R152). -/
def Obligations.HostWritesChangeOnlyTheirBytes : Prop :=
  ∀ (a : Half) (s : State), MemoryCanonical s → a.toNat < 32768 →
    (∀ v : Byte, Completes (.hostRamAccess (.now (.writeByte a v))) s (fun t =>
      StoredAt a.toNat [v] s t ∧ OnlyChanges [.ram, .ntw] s t ∧
      (s.ntw.ringWaiting = true ∧ TouchesNoticeTaken s a.toNat 1 → t.ntw = { s.ntw with takenTouched := true }) ∧
      (¬ (s.ntw.ringWaiting = true ∧ TouchesNoticeTaken s a.toNat 1) → t.ntw = s.ntw))) ∧
    (∀ v : Half, a.toNat % 2 = 0 → Completes (.hostRamAccess (.now (.writeWord a v))) s (fun t =>
      StoredAt a.toNat (halfBytes v) s t ∧ OnlyChanges [.ram, .ntw] s t ∧
      (s.ntw.ringWaiting = true ∧ TouchesNoticeTaken s a.toNat 2 → t.ntw = { s.ntw with takenTouched := true }) ∧
      (¬ (s.ntw.ringWaiting = true ∧ TouchesNoticeTaken s a.toNat 2) → t.ntw = s.ntw)))

/-- A host access stops exactly where the port makes none (R137, 00_scope.md; the stop is the model's,
notes/assumptions/18.md): outside the RAM, or a word at an odd address; now or to come. One to come during a work is noted
behind those noted before it (the model's form, notes/assumptions/42.md). -/
def Obligations.HostAccessStopsOnlyOutside : Prop :=
  ∀ (x : HostAccess) (s : State),
    (32768 ≤ (accessAddr x.ram).toNat → exec (.hostRamAccess x) s = .fault .addressOutsideRam) ∧
    ((accessAddr x.ram).toNat < 32768 → isWordAccess x.ram = true → (accessAddr x.ram).toNat % 2 = 1 →
      exec (.hostRamAccess x) s = .fault .oddWordAddress) ∧
    ((Instr.hostRamAccess x).wellFormed = true → ∃ t, exec (.hostRamAccess x) s = .next t) ∧
    ∀ (n : Nat) (y : RamAccess), x = .during n y → (Instr.hostRamAccess x).wellFormed = true →
      Completes (.hostRamAccess x) s (fun t =>
        t.hpa = { s.hpa with coming := s.hpa.coming ++ [{ turn := n, access := y }] } ∧ OnlyChanges [.hpa] s t)

/-! ### RUN and the Settings Record -/

/-- The settings of a record, once clamped, are in force (R25, R143, R136): ESC's fields, the other settings, the link
mode, and the print point at (LM, 0) when LST holds no cells (R23). -/
def SettingsInForce (c : RawSettings) (s t : State) : Prop :=
  t.esc = { s.esc with
    pitch := (Pitch.ofNat? c.pitch).getD .p10, customPitch := c.customPitch, unitSize := c.unitSize, lm := c.leftMargin
    rm := c.rightMargin, hotZone := c.hotZone, bellDistance := c.bellDistance
    frac := if s.lst.cells = [] then 0 else s.esc.frac } ∧
  t.settings = { lineSpacing := c.lineSpacing, energy0 := c.energy0, energy1 := c.energy1, energy2 := c.energy2
                 energy3 := c.energy3, liftBoost := c.liftBoost, restSeconds := c.restSeconds, messageTime := c.messageTime } ∧
  t.dsp = { s.dsp with linkMode := if c.linkMode = 0 then .diff else .scan
                       image := t.dsp.image, windowStart := t.dsp.windowStart } ∧
  t.lst.step = (if s.lst.cells = [] then c.leftMargin else s.lst.step)

/-- The Settings Record at an address (section 8.5): where each field stands and how wide it is, the low byte first, and the
fields in the order of their indices 1 to 17. -/
def SettingsRecordRead (s : State) (a : Nat) (r : RawSettings) : Prop :=
  let byte := fun i => (Memory.read s.ram ((a + i) % 32768)).toNat
  let word := fun i => byte i + 256 * byte (i + 1)
  r.lineSpacing = byte 0 ∧ r.pitch = byte 1 ∧ r.customPitch = word 2 ∧ r.unitSize = byte 4 ∧ r.liftBoost = byte 5 ∧
  r.leftMargin = word 6 ∧ r.rightMargin = word 8 ∧ r.hotZone = word 10 ∧ r.bellDistance = word 12 ∧ r.energy0 = byte 14 ∧
  r.energy1 = byte 15 ∧ r.energy2 = byte 16 ∧ r.energy3 = byte 17 ∧ r.restSeconds = byte 18 ∧ r.messageTime = byte 19 ∧
  r.linkMode = byte 20 ∧ r.spellingFlags = byte 21 ∧
  settingsByIndex r = [byte 0, byte 1, word 2, byte 4, word 6, word 8, word 10, word 12, byte 14, byte 15, byte 16, byte 17,
    byte 5, byte 18, byte 19, byte 20, byte 21]

/-- The first RUN_START after a reset (R141, R153, R158): the Anchor Block pointers, NoticeProduced, the settings read and clamped,
the spelling bits, and the first homing, or PARKED with no motion while the cover is open (its motors off,
notes/assumptions/33.md). Notices still due from earlier stay ahead of the read's own (notes/assumptions/37.md). -/
def Obligations.FirstRunStartsThePart : Prop :=
  ∀ s : State, MemoryCanonical s → Powered s → runOn s = false → s.klr.ran = false →
    Completes .runStart s (fun t =>
      let b := anchorBase s
      let raw := readSettings t (ramHalf s (b + 2)).toNat
      let c := clampSettings raw
      SettingsRecordRead t (ramHalf s (b + 2)).toNat raw ∧
      t.hpa = { s.hpa with command := s.hpa.command ||| 0x01 } ∧
      t.klr = { s.klr with
        keyHead := some (ramHalf s b), settingsPtr := some (ramHalf s (b + 2)), ran := true, pendingStop := false
        walkDue := decide (s.klr.state = .stopped), clampDue := s.klr.clampDue ++ clampsOf raw } ∧
      t.ntw = { s.ntw with noticeBase := some (ramHalf s (b + 6)), mirrorLast := List.replicate 17 none } ∧
      t.spc = { s.spc with filterBase := some (ramHalf s (b + 8)), userList := some (ramHalf s (b + 10))
                           filterOrder := some (ramByte s (b + 12)) } ∧
      StoredAt (b + 14) (halfBytes s.ntw.produced) s t ∧
      SettingsInForce c s t ∧
      t.lst = { s.lst with
        wheelTable := some (ramHalf s (b + 4)), step := t.lst.step
        mode := { s.lst.mode with spellingOn := c.spellingFlags.testBit 0, spellingHold := c.spellingFlags.testBit 1 } } ∧
      (s.pmc.coverOpen = false → t.pmc.state = .homing ∧ t.pmc.homing = some { kind := .first, part := .carriage } ∧
        t.pmc.work = s.pmc.work) ∧
      (s.pmc.coverOpen = true →
        t.pmc = { s.pmc with
          state := .parked, parked := some (.homing .first), parkMoving := false, motors := .off }) ∧
      OnlyChanges [.hpa, .klr, .lst, .esc, .settings, .pmc, .spc, .dsp, .ntw, .ram] s t)

/-- A later RUN_START (R141, R143, R149, R153): SettingsPtr, KeyHead only after a stop in BAD, NoticeProduced and the
clamped settings; and RUN written 1 while it is 1 does nothing. Notices still due from an earlier read stay ahead of this
read's (notes/assumptions/37.md). -/
def Obligations.LaterRunRereadsTheSettings : Prop :=
  ∀ s : State, MemoryCanonical s → Powered s →
    (runOn s = true → ChangesNothing .runStart s) ∧
    (runOn s = false → s.klr.ran = true →
      Completes .runStart s (fun t =>
        let b := anchorBase s
        let raw := readSettings t (ramHalf s (b + 2)).toNat
        SettingsRecordRead t (ramHalf s (b + 2)).toNat raw ∧
        t.hpa = { s.hpa with command := s.hpa.command ||| 0x01 } ∧
        t.klr = { s.klr with
          keyHead := if s.klr.badStop then some (ramHalf s b) else s.klr.keyHead
          settingsPtr := some (ramHalf s (b + 2)), badStop := false, pendingStop := false
          walkDue := decide (s.klr.state = .stopped), clampDue := s.klr.clampDue ++ clampsOf raw } ∧
        t.ntw = { s.ntw with mirrorLast := List.replicate 17 none } ∧
        StoredAt (b + 14) (halfBytes s.ntw.produced) s t ∧
        SettingsInForce (clampSettings raw) s t ∧ t.lst = { s.lst with step := t.lst.step } ∧
        OnlyChanges [.hpa, .klr, .lst, .esc, .settings, .dsp, .ntw, .ram] s t))

/-- A value below a range or above it is brought to its nearer end. -/
def broughtInto (lo hi n : Nat) : Nat := if n < lo then lo else if hi < n then hi else n

/-- The table of R25 and R143: what each field of a Settings Record is brought to. The SETTINGS_CLAMPED notices still to be
posted are those of the changed fields, in index order (R143), and SETTINGS_CLAMPED_POST posts the first of them once there
is no stall. -/
def Obligations.SettingsAreClampedAndReported : Prop :=
  (∀ r : RawSettings,
    let c := clampSettings r
    c.lineSpacing = broughtInto 1 8 r.lineSpacing ∧ c.pitch = (if 4 < r.pitch then 0 else r.pitch) ∧
    c.customPitch = broughtInto 128 640 r.customPitch ∧ c.unitSize = broughtInto 32 96 r.unitSize ∧
    c.leftMargin = broughtInto 0 3119 r.leftMargin ∧
    c.rightMargin = broughtInto (broughtInto 0 3119 r.leftMargin + 240) 3359 r.rightMargin ∧
    c.hotZone = broughtInto 0 480 r.hotZone ∧ c.bellDistance = broughtInto 0 480 r.bellDistance ∧
    c.energy0 = broughtInto 1 15 r.energy0 ∧ c.energy1 = broughtInto 1 15 r.energy1 ∧
    c.energy2 = broughtInto 1 15 r.energy2 ∧ c.energy3 = broughtInto 1 15 r.energy3 ∧
    c.liftBoost = broughtInto 0 15 r.liftBoost ∧ c.restSeconds = r.restSeconds ∧
    c.messageTime = (if r.messageTime = 0 then 1 else r.messageTime) ∧
    c.linkMode = (if 1 < r.linkMode then 0 else r.linkMode) ∧ c.spellingFlags = r.spellingFlags % 4) ∧
  (∀ r : RawSettings, ((clampsOf r).map Clamp.index).Pairwise (· < ·) ∧
    ∀ i v, (Clamp.mk i v ∈ clampsOf r ↔ ∃ raw used, 1 ≤ i ∧ (settingsByIndex r)[i - 1]? = some raw ∧
      (settingsByIndex (clampSettings r))[i - 1]? = some used ∧ raw ≠ used ∧ v = half used)) ∧
  (∀ (s : State) (c : Clamp) (cs : List Clamp), Powered s → s.klr.clampDue = c :: cs →
    (NoStall s → Completes .settingsClampedPost s (fun t =>
      t.klr = { s.klr with clampDue := cs } ∧
      t.ntw = { s.ntw with holding := s.ntw.holding ++ [
        { kind := .settingsClamped, ragged := false, detail := BitVec.ofNat 8 c.index, origin := 0
          tag := s.lst.platenTag, position := c.used }] } ∧
      OnlyChanges [.klr, .ntw] s t)) ∧
    (¬ NoStall s → ChangesNothing .settingsClampedPost s))

/-! ### The Key List Reader -/

/-- The reader has stopped (R149): STOPPED, FROM_HELD, HeldRecord published, LISTEND not set. -/
def ReaderStopped (s t : State) : Prop :=
  t.klr = { s.klr with
    state := .stopped, restart := .fromHeld, pendingStop := false, linkDue := false, walkDue := false } ∧
  StoredAt (anchorBase s + 18) (halfBytes (s.klr.held.getD 0xFFFF)) s t

/-- RUN_STOP by the reader's state (R149); RUN written 0 while it is 0 does nothing. Between a return and the link
re-read the reader stops at once (the model's choice, notes/assumptions/12.md). -/
def Obligations.RunStopByReaderState : Prop :=
  ∀ s : State, MemoryCanonical s → Powered s →
    (runOn s = false → ChangesNothing .runStop s) ∧
    (runOn s = true → Completes .runStop s (fun t =>
      t.hpa = { s.hpa with command := s.hpa.command &&& 0xFE } ∧ OnlyChanges [.hpa, .klr, .ram] s t ∧
      (s.klr.state = .fetch ∨ s.klr.state = .atEnd ∨ (s.klr.state = .taking ∧ s.klr.linkDue = true) → ReaderStopped s t) ∧
      ((s.klr.state = .taking ∧ s.klr.linkDue = false) ∨ s.klr.state = .heldFull →
        t.klr = { s.klr with pendingStop := true } ∧ OnlyChanges [.hpa, .klr] s t) ∧
      (s.klr.state = .bad →
        t.klr = { s.klr with state := .stopped, restart := .fromHead, badStop := true } ∧ OnlyChanges [.hpa, .klr] s t) ∧
      (s.klr.state = .stopped → t.klr = { s.klr with walkDue := false } ∧ OnlyChanges [.hpa, .klr] s t)))

/-- The reader has entered AT_END (R148): HeldRecord, then LISTEND. -/
def AtEndEntered (s t : State) : Prop :=
  t.klr = { s.klr with state := .atEnd, linkDue := false } ∧ t.hpa = { s.hpa with event := s.hpa.event ||| 0x02 } ∧
  StoredAt (anchorBase s + 18) (halfBytes (s.klr.held.getD 0xFFFF)) s t ∧ OnlyChanges [.klr, .hpa, .ram] s t

/-- The reader has entered FETCH at an address (R147). -/
def FetchEntered (addr : Half) (s t : State) : Prop :=
  t.klr = { s.klr with state := .fetch, current := addr, linkDue := false, walkDue := false } ∧ OnlyChanges [.klr] s t

/-- The reader has entered BAD over a bad value (R147): HeldRecord and LIST_BAD. That a value bad in both ways has detail 1 is
the model's choice (notes/assumptions/40.md). -/
def BadEntered (from_ bad : Half) (s t : State) : Prop :=
  t.klr.state = .bad ∧ StoredAt (anchorBase s + 18) (halfBytes from_) s t ∧
  t.ntw = { s.ntw with holding := s.ntw.holding ++ [
    { kind := .listBad, ragged := false, detail := if bad.toNat % 8 ≠ 0 then 1 else 2, origin := from_
      tag := s.lst.platenTag, position := bad }] } ∧
  OnlyChanges [.klr, .ntw, .ram] s t

/-- A link or KeyHead that fails the test of R147. -/
def BadValue (v : Half) : Prop := v.toNat % 8 ≠ 0 ∨ 0x7FF8 < v.toNat

/-- The host's accesses among a block's own (R138): before the block's access number n stand the host accesses that came by
then, carried out in their order as HOST_RAM_ACCESS carries them out; and so all of them in the end, when none is left to come.
That they are noted beforehand is the model's form (notes/assumptions/42.md). -/
def TrafficSays (s : State) : Prop :=
  ComingServable s → ∀ r : Requester,
    (∀ n, ∃ before after, s.hpa.coming = before ++ after ∧ (∀ c, c ∈ before → c.turn ≤ n) ∧
      (∀ c, after.head? = some c → n < c.turn) ∧
      carryOut exec (before.map (fun c => .hostRamAccess (.now c.access))) s = .next (atAccess r s n)) ∧
    carryOut exec (s.hpa.coming.map (fun c => .hostRamAccess (.now c.access)))
      { s with hpa := { s.hpa with coming := [] } } = .next (afterTraffic r s)

/-- KEY_RECORD_FETCH (R146, R137, R138) with any host accesses among its reads: in FETCH with no stall, custody 0 at the first
read leads to AT_END, with HeldRecord written at KLR's next access, and any other custody latches kind, code and argument as the
record held them when its custody was read, since host writes of the record wait until the last read; in a stall nothing is
read. -/
def Obligations.FetchLatchesOrEnds : Prop :=
  ∀ s : State, MemoryCanonical s → Powered s → s.klr.state = .fetch →
    TrafficSays s ∧
    (¬ NoStall s → ChangesNothing .keyRecordFetch s) ∧
    (NoStall s →
      let a := s.klr.current.toNat
      let first := atAccess .klr s 0
      (ramByte first (a + 2) = 0 → Completes .keyRecordFetch s (fun t =>
        ∃ u, AtEndEntered (atAccess .klr s 1) u ∧ OnlyChanges [] (afterTraffic .klr (dropCome 1 u)) t)) ∧
      (ramByte first (a + 2) ≠ 0 → Completes .keyRecordFetch s (fun t =>
        t.klr = { s.klr with
          state := .taking, linkDue := false, offset := 0, made := 0, skipped := 0
          latched := { kind := ramByte first (a + 3), code := ramByte first (a + 4), arg := ramHalf first (a + 6) } } ∧
        OnlyChanges [.klr] (afterTraffic .klr s) t)))

/-- A record's bytes as it is returned: each listed byte of the record, custody 0 among them, and no other byte of the
RAM changed (R45, R47, R53). -/
def Returned (bytes : List (Nat × Byte)) (s t : State) : Prop :=
  (∀ i v, (i, v) ∈ (2, (0 : Byte)) :: bytes → ramByte t (s.klr.current.toNat + i) = v) ∧
    ∀ b, (∀ i v, (i, v) ∈ (2, (0 : Byte)) :: bytes → b ≠ (s.klr.current.toNat + i) % Config.ramSize) →
      Memory.read t.ram b = Memory.read s.ram b

/-- A latched record that is no TEXT stands in TAKING, not yet returned. -/
def TakingOther (s : State) : Prop :=
  s.klr.state = .taking ∧ s.klr.linkDue = false ∧ KeyKind.ofByte s.klr.latched.kind ≠ some .text

/-- The seventeen kinds, by number from 1 on (R43). -/
def kindsInOrder : List KeyKind :=
  [.char, .text, .backspace, .erase, .ret, .tab, .index, .relocate, .mode, .margin, .tabset, .wheel, .addWord, .pause, .mark,
   .showText, .forward]

/-- The checks of R44 in their order, by the numbers of R43 (1 CHAR, 2 TEXT, 4 ERASE, 12 WHEEL, 16 SHOW): a record that fails
one has the outcome of the first it fails, and any other is accepted as its kind; and the outcomes' codes (section 8.5). -/
def IntakeSays (l : Latched) : Prop :=
  let kind := l.kind.toNat
  let code := l.code.toNat
  let arg := l.arg.toNat
  let kindBad := kind < 1 ∨ 17 < kind
  let codeBad := (kind = 1 ∧ (code < 0x20 ∨ 0x7E < code)) ∨ (kind = 12 ∧ 7 < code) ∨ (kind = 4 ∧ 1 < code)
  let lengthBad := (kind = 2 ∧ code = 0) ∨ (kind = 16 ∧ (code = 0 ∨ 32 < code))
  let pointerBad := ((kind = 2 ∨ kind = 16) ∧ 0x7FFF < arg + code - 1) ∨ (kind = 12 ∧ 0x7FFF < arg + 511)
  (kindBad → KeyKind.ofByte l.kind = none ∧ validate l = .error .badKind) ∧
  (¬ kindBad → KeyKind.ofByte l.kind = kindsInOrder[kind - 1]? ∧
    (codeBad → validate l = .error .badCode) ∧
    (¬ codeBad → lengthBad → validate l = .error .badLength) ∧
    (¬ codeBad → ¬ lengthBad → pointerBad → validate l = .error .badPointer) ∧
    (¬ codeBad → ¬ lengthBad → ¬ pointerBad → ∃ k, kindsInOrder[kind - 1]? = some k ∧ validate l = .ok k)) ∧
  [RecordOutcome.accepted, .badKind, .badCode, .badLength, .badPointer, .flushed].map RecordOutcome.toByte = [1, 2, 3, 4, 5, 6]

/-- The intake's checks (R44), with their boundaries; and RECORD_TAKE (R44, R45, R51) with no pending stop: a refused record is returned with its outcome; an accepted one has
its action placed and is returned; with TAQ full the reader enters HELD_FULL; in a stall nothing is placed. That a stall holds
back neither the refusal nor HELD_FULL is DEDUCED (notes/assumptions/14.md); that the reader then stands in TAKING until the
link re-read is the model's choice (notes/assumptions/12.md). -/
def Obligations.RecordTakeOutcomes : Prop :=
  (∀ l : Latched, IntakeSays l) ∧
  ∀ s : State, MemoryCanonical s → Powered s → TakingOther s → s.klr.pendingStop = false →
    (∀ o, validate s.klr.latched = .error o → Completes .recordTake s (fun t =>
      t.klr = { s.klr with held := some s.klr.current, linkDue := true } ∧ Returned [(5, o.toByte)] s t ∧
      OnlyChanges [.klr, .ram] s t)) ∧
    (∀ k, validate s.klr.latched = .ok k →
      (64 ≤ s.taq.length → Completes .recordTake s (fun t =>
        t.klr = { s.klr with state := .heldFull } ∧ OnlyChanges [.klr] s t)) ∧
      (s.taq.length < 64 → ¬ NoStall s → ChangesNothing .recordTake s) ∧
      (s.taq.length < 64 → NoStall s → Completes .recordTake s (fun t =>
        t.taq = s.taq ++ [{ kind := k, code := s.klr.latched.code, arg := s.klr.latched.arg, origin := s.klr.current
                            seq := s.klr.seq }] ∧
        t.klr = { s.klr with seq := s.klr.seq + 1, held := some s.klr.current, linkDue := true } ∧
        Returned [(5, 1)] s t ∧ OnlyChanges [.klr, .taq, .ram] s t)))

/-- The action of a TEXT byte, in its place in TAQ (R46). -/
def textActionAt (s : State) (b : Byte) : List Action :=
  if 0x20 ≤ b.toNat ∧ b.toNat ≤ 0x7E then [{ kind := .char, code := b, arg := 0, origin := s.klr.current, seq := s.klr.seq }]
  else if b = 0x0D then [{ kind := .ret, code := 0, arg := 0, origin := s.klr.current, seq := s.klr.seq }]
  else if b = 0x09 then [{ kind := .tab, code := 0, arg := 0, origin := s.klr.current, seq := s.klr.seq }]
  else if b = 0x08 then [{ kind := .backspace, code := 0, arg := 1, origin := s.klr.current, seq := s.klr.seq }]
  else []

/-- TEXT_BYTE_READ (R44, R46, R47) with no pending stop: a refused record is returned (which one is, RecordTakeOutcomes says); a full TAQ leads to HELD_FULL;
otherwise one byte is placed or skipped, and at the end of the string the record is returned with its counts. What a stall
does not hold back is notes/assumptions/14.md, TAKING until the link re-read notes/assumptions/12.md. -/
def Obligations.TextByteByByte : Prop :=
  ∀ s : State, MemoryCanonical s → Powered s → s.klr.state = .taking → s.klr.linkDue = false →
    KeyKind.ofByte s.klr.latched.kind = some .text → s.klr.pendingStop = false →
    s.klr.offset < s.klr.latched.code.toNat ∨ validate s.klr.latched ≠ .ok .text →
    (∀ o, validate s.klr.latched = .error o → Completes .textByteRead s (fun t =>
      t.klr = { s.klr with held := some s.klr.current, linkDue := true } ∧ Returned [(5, o.toByte)] s t ∧
      OnlyChanges [.klr, .ram] s t)) ∧
    (validate s.klr.latched = .ok .text →
      (64 ≤ s.taq.length → Completes .textByteRead s (fun t =>
        t.klr = { s.klr with state := .heldFull } ∧ OnlyChanges [.klr] s t)) ∧
      (s.taq.length < 64 → ¬ NoStall s → ChangesNothing .textByteRead s) ∧
      (s.taq.length < 64 → NoStall s →
        let b := ramByte s (s.klr.latched.arg.toNat + s.klr.offset)
        let n := (textActionAt s b).length
        Completes .textByteRead s (fun t =>
          t.taq = s.taq ++ textActionAt s b ∧ t.klr.seq = s.klr.seq + BitVec.ofNat 16 n ∧ t.klr.made = s.klr.made + n ∧
          t.klr.skipped = s.klr.skipped + (1 - n) ∧ t.klr.offset = s.klr.offset + 1 ∧ OnlyChanges [.klr, .taq, .ram] s t ∧
          (s.klr.offset + 1 < s.klr.latched.code.toNat → OnlyChanges [.klr, .taq] s t ∧
            t.klr.state = if s.taq.length + n = 64 then .heldFull else .taking) ∧
          (s.klr.offset + 1 = s.klr.latched.code.toNat →
            t.klr.state = .taking ∧ t.klr.linkDue = true ∧ t.klr.held = some s.klr.current ∧
            Returned [(5, 1), (6, BitVec.ofNat 8 t.klr.made), (7, BitVec.ofNat 8 t.klr.skipped)] s t))))

/-- HELD_FULL_RESUME (R51): with room in TAQ the reader returns to TAKING, and without a stall it goes on as the take or
the next byte does; with TAQ full it does nothing. That a stall leaves it in TAKING is notes/assumptions/14.md. -/
def Obligations.HeldFullResumesTheTake : Prop :=
  ∀ s : State, Powered s → s.klr.state = .heldFull → s.klr.linkDue = false →
    let r := s.withKlr { s.klr with state := .taking }
    (64 ≤ s.taq.length → ChangesNothing .heldFullResume s) ∧
    (s.taq.length < 64 → ¬ NoStall s → Completes .heldFullResume s (fun t => t.klr = r.klr ∧ OnlyChanges [.klr] s t)) ∧
    (s.taq.length < 64 → NoStall s →
      ∃ t, exec .heldFullResume s = .next t ∧
        (KeyKind.ofByte s.klr.latched.kind = some .text → exec .textByteRead r = .next t) ∧
        (KeyKind.ofByte s.klr.latched.kind ≠ some .text → exec .recordTake r = .next t))

/-- LINK_REREAD (R147): the held record's link leads to AT_END, to BAD or to FETCH. -/
def Obligations.LinkRereadFollowsTheLink : Prop :=
  ∀ (s : State) (h : Half), MemoryCanonical s → Powered s → s.klr.state = .taking → s.klr.linkDue = true →
    s.klr.held = some h →
    (ramHalf s h.toNat = 0 → Completes .linkReread s (AtEndEntered s)) ∧
    (BadValue (ramHalf s h.toNat) → Completes .linkReread s (BadEntered h (ramHalf s h.toNat) s)) ∧
    (ramHalf s h.toNat ≠ 0 → ¬ BadValue (ramHalf s h.toNat) →
      Completes .linkReread s (FetchEntered (ramHalf s h.toNat) s))

/-- WALK_START (R149): from KeyHead, tested as a link is but for 0; from the held record's link; or at the current
address; in a stall the reader stays in STOPPED. -/
def Obligations.WalkStartsWhereTheReaderStopped : Prop :=
  ∀ s : State, MemoryCanonical s → Powered s → s.klr.state = .stopped → s.klr.walkDue = true →
    (¬ NoStall s → ChangesNothing .walkStart s) ∧
    (NoStall s →
      (∀ k, s.klr.restart = .fromHead → s.klr.keyHead = some k →
        (¬ BadValue k → Completes .walkStart s (fun t =>
          t.klr.state = .fetch ∧ t.klr.current = k ∧ t.klr.held = none ∧ OnlyChanges [.klr] s t)) ∧
        (BadValue k → Completes .walkStart s (fun t => BadEntered 0xFFFF k s t ∧ t.klr.held = none))) ∧
      (∀ h, s.klr.restart = .fromHeld → s.klr.held = some h →
        (ramHalf s h.toNat = 0 → Completes .walkStart s (fun t => t.klr.state = .atEnd ∧
          t.hpa = { s.hpa with event := s.hpa.event ||| 0x02 } ∧ StoredAt (anchorBase s + 18) (halfBytes h) s t)) ∧
        (BadValue (ramHalf s h.toNat) → Completes .walkStart s (BadEntered h (ramHalf s h.toNat) s)) ∧
        (ramHalf s h.toNat ≠ 0 → ¬ BadValue (ramHalf s h.toNat) →
          Completes .walkStart s (FetchEntered (ramHalf s h.toNat) s))) ∧
      (s.klr.restart = .fromHeld → s.klr.held = none → Completes .walkStart s (FetchEntered s.klr.current s)))

/-- The re-read in AT_END (R148): what it finds of the held record's link and the custody of the current address. -/
def RereadFinds (s t : State) : Prop :=
  (∀ h, s.klr.held = some h →
    let link := ramHalf s h.toNat
    (link = 0 → OnlyChanges [] s t) ∧
    (BadValue link → BadEntered h link s t) ∧
    (link ≠ 0 → ¬ BadValue link → t.klr.current = link ∧ OnlyChanges [.klr] s t ∧
      t.klr.state = if ramByte s (link.toNat + 2) = 0 then .atEnd else .fetch)) ∧
  (s.klr.held = none → t.klr.current = s.klr.current ∧ OnlyChanges [.klr] s t ∧
    t.klr.state = if ramByte s (s.klr.current.toNat + 2) = 0 then .atEnd else .fetch)

/-- WAKE, and LIST_POLL with the ring not full, make the re-read in AT_END (R148) and in any other state nothing. That no
request is left at the RAM port is the invariant of RegisterBitsKept. -/
def Obligations.WakeAndPollReread : Prop :=
  ∀ s : State, MemoryCanonical s → Powered s → s.ntw.ringWaiting = false → s.hpa.portRequests = [] →
    (s.klr.state = .atEnd → Completes .wake s (RereadFinds s) ∧ Completes .listPoll s (RereadFinds s)) ∧
    (s.klr.state ≠ .atEnd → ChangesNothing .wake s ∧ Completes .listPoll s (OnlyChanges [] s))

/-- The conversion at the head has begun (R50): the release of a RETURN or a MODE, the close that follows a release, or an ERASE
walk of which a step has acted. A RETURN or INDEX that still waits to close, a RETURN that waits for its words, and a walk that
has not yet acted have not. -/
def ConversionBegun (s : State) : Prop :=
  (∃ closes, s.lst.conv = .releasing closes) ∨ s.lst.conv = .draining true ∨ ∃ w, s.lst.conv = .erasing w ∧ w.acted = true

/-- FLUSH (R52, R53): TAQ keeps only an action whose conversion has begun (R50), the sequence counter, the cells, the Work List
and the Word Check Queue stand, and a TEXT record or a record held for room is returned as FLUSHED, a TEXT record not yet
validated too (notes/assumptions/22.md), after which the reader stands in TAKING until the link re-read
(notes/assumptions/12.md). What it finds in HELD_FULL is so returned until HELD_FULL_RESUME (notes/assumptions/13.md). -/
def Obligations.FlushEmptiesTheQueue : Prop :=
  ∀ s : State, MemoryCanonical s → Powered s → Completes .flush s (fun t =>
    (ConversionBegun s → t.taq = s.taq.take 1 ∧ t.lst = s.lst) ∧
    (¬ ConversionBegun s → t.taq = [] ∧ t.lst = { s.lst with conv := .idle }) ∧
    t.klr.seq = s.klr.seq ∧ OnlyChanges [.taq, .lst, .klr, .ram] s t ∧
    (s.klr.state = .stopped ∨ s.klr.state = .fetch ∨ s.klr.state = .atEnd ∨ s.klr.state = .bad ∨
      (s.klr.state = .taking ∧ s.klr.linkDue = true) ∨ TakingOther s → OnlyChanges [.taq, .lst] s t) ∧
    (s.klr.pendingStop = false →
      (KeyKind.ofByte s.klr.latched.kind = some .text →
        (s.klr.state = .taking ∧ s.klr.linkDue = false) ∨ s.klr.state = .heldFull →
        Returned [(5, 6), (6, BitVec.ofNat 8 s.klr.made), (7, BitVec.ofNat 8 s.klr.skipped)] s t ∧
          t.klr = { s.klr with state := .taking, held := some s.klr.current, linkDue := true }) ∧
      (KeyKind.ofByte s.klr.latched.kind ≠ some .text → s.klr.state = .heldFull →
        Returned [(5, 6)] s t ∧ t.klr = { s.klr with state := .taking, held := some s.klr.current, linkDue := true })))

/-- The reader has stopped at the return of the record it was taking (R149): FROM_HELD, HeldRecord naming that record,
LISTEND not set. -/
def StoppedAtReturn (s t : State) : Prop :=
  t.klr.state = .stopped ∧ t.klr.restart = .fromHeld ∧ t.klr.pendingStop = false ∧ t.klr.held = some s.klr.current ∧
    ramHalf t (anchorBase s + 18) = s.klr.current ∧ t.hpa = s.hpa

/-- A pending stop is taken at the record's return (R149, R53), whichever way the record is returned: refused or accepted
(which of them, RecordTakeOutcomes says),
a refused TEXT record, at the end of a TEXT string, or flushed. That a refused record is returned in a stall too is DEDUCED
(notes/assumptions/14.md). -/
def Obligations.PendingStopTakenAtReturn : Prop :=
  ∀ s : State, MemoryCanonical s → Powered s → s.klr.pendingStop = true →
    (TakingOther s → (∀ o, validate s.klr.latched = .error o → Completes .recordTake s (StoppedAtReturn s)) ∧
      (∀ k, validate s.klr.latched = .ok k → s.taq.length < 64 → NoStall s →
        Completes .recordTake s (fun t => StoppedAtReturn s t ∧ t.taq.length = s.taq.length + 1))) ∧
    (KeyKind.ofByte s.klr.latched.kind = some .text →
      (∀ o, s.klr.state = .taking → s.klr.linkDue = false → validate s.klr.latched = .error o →
        Completes .textByteRead s (StoppedAtReturn s)) ∧
      (s.klr.state = .taking → s.klr.linkDue = false → validate s.klr.latched = .ok .text →
        s.klr.offset + 1 = s.klr.latched.code.toNat → s.taq.length < 64 → NoStall s →
        Completes .textByteRead s (StoppedAtReturn s)) ∧
      (s.klr.state = .taking → s.klr.linkDue = false → Completes .flush s (StoppedAtReturn s))) ∧
    (s.klr.state = .heldFull → Completes .flush s (StoppedAtReturn s))

/-! ### Holding and REHOME -/

/-- PMC has come to READY, or at once to HELD for a hold reason, which sets HOLD (R75, R76, R160). The PMC given is the one
that comes there. -/
def CameToReady (p : Pmc) (s t : State) : Prop :=
  t.pmc = { p with state := if holdReason s then .held else .ready, everReady := true, motors := .on, supply := .down } ∧
    t.hpa = { s.hpa with event := if holdReason s then s.hpa.event ||| 0x10 else s.hpa.event }

/-- QUIET_SET, QUIET_CLEAR and REHOME by the mechanism's state (R71, R75, R76): READY and RESTING go to HELD at once, any
other state only records QUIET; HELD ends when no other reason is present, for RESTING with the motors still off; REHOME is
taken in FAULT with the cover closed and no stall, and ignored otherwise. -/
def Obligations.QuietAndRehomeByState : Prop :=
  ∀ s : State, Powered s →
    Completes .quietSet s (fun t =>
      OnlyChanges [.hpa, .pmc] s t ∧
      (s.pmc.state = .ready ∨ s.pmc.state = .resting → t.pmc = { s.pmc with state := .held } ∧
        t.hpa = { s.hpa with command := s.hpa.command ||| 0x08, event := s.hpa.event ||| 0x10 }) ∧
      (s.pmc.state ≠ .ready → s.pmc.state ≠ .resting → t.pmc = s.pmc ∧
        t.hpa = { s.hpa with command := s.hpa.command ||| 0x08 })) ∧
    Completes .quietClear s (fun t =>
      OnlyChanges [.hpa, .pmc] s t ∧ t.hpa = { s.hpa with command := s.hpa.command &&& 0xF7 } ∧
      (s.pmc.state = .held → s.pmc.ribbonHold = false →
        t.pmc = if s.pmc.motors = .off then { s.pmc with state := .resting }
          else { s.pmc with state := .ready, everReady := true, motors := .on, supply := .down }) ∧
      (s.pmc.state ≠ .held ∨ s.pmc.ribbonHold = true → t.pmc = s.pmc)) ∧
    (s.pmc.state = .fault → s.pmc.coverOpen = false → NoStall s → Completes .rehome s (fun t =>
      t.pmc = { s.pmc with
        state := .homing, retry := 0, homing := some { kind := .rehome, part := .carriage }, motors := .on, supply := .down
        parked := none, parkMoving := false, wheelTrusted := false } ∧
      OnlyChanges [.pmc] s t)) ∧
    (s.pmc.state ≠ .fault ∨ s.pmc.coverOpen = true ∨ ¬ NoStall s → ChangesNothing .rehome s)

/-! ### Words of the Spelling Checker (R106 to R114): each says what it makes of the cells and of SPC, given the line tag -/

/-- A word number is in use (R107). -/
def NumberInUse (cs : List Cell) (p : Spc) (n : Byte) : Prop :=
  (∃ c, c ∈ cs ∧ c.mark ≠ .unmarked ∧ c.wordNo = n) ∨ (∃ w, w ∈ p.queue ∧ w.number = n) ∨
    ∃ f, p.flight = some f ∧ f.word.number = n

/-- A fresh word number (R107): the first past the counter that is not in use; a number not in use whenever there is one. -/
def FreshNumber (cs : List Cell) (p : Spc) (n : Byte) : Prop :=
  ∃ k, k < 256 ∧ n = p.wordCounter + 1 + BitVec.ofNat 8 k ∧
    (∀ j, j < k → NumberInUse cs p (p.wordCounter + 1 + BitVec.ofNat 8 j)) ∧
    ((∃ m, ¬ NumberInUse cs p m) → ¬ NumberInUse cs p n)

/-- The mark of a word with so many words queued (R106 step 4). -/
def markOfWord (word : List Cell) (queued : Nat) : Mark :=
  if word.any (fun c => decide (c.fold = 31)) then .skipped
  else if word.length = 1 then .good
  else if 24 < word.length then .skipped
  else if 4 ≤ queued then .skipped
  else .pending

/-- The word is SKIPPED because the queue was full, which the unchecked-words counter counts (R106 step 4). -/
def foundFull (word : List Cell) (queued : Nat) : Bool :=
  word.all (fun c => decide (c.fold ≠ 31)) && decide (2 ≤ word.length ∧ word.length ≤ 24 ∧ 4 ≤ queued)

/-- A run is ended (R106): the inner marks at its ends set aside, the rest a word with a fresh number, its cells marked by
the table, and queued when PENDING. -/
def RunEnded (tag : Half) (run cs : List Cell) (p : Spc) (cs' : List Cell) (p' : Spc) : Prop :=
  ∃ before word after, run = before ++ word ++ after ∧ (∀ c, c ∈ before ++ after → c.fold = 27) ∧
    (∀ c, word.head? = some c ∨ word.getLast? = some c → c.fold ≠ 27) ∧
    (word = [] → cs' = cs ∧ p' = p) ∧
    ∀ first others, word = first :: others → ∃ n, FreshNumber cs p n ∧
      cs' = cs.map (fun c => if c.id ∈ word.map Cell.id then
        { c with mark := markOfWord word p.queue.length, wordNo := n } else c) ∧
      p' = { p with
        wordCounter := n
        unchecked := if foundFull word p.queue.length then min 65535 (p.unchecked + 1) else p.unchecked
        queue := p.queue ++ (if markOfWord word p.queue.length = .pending then
          [{ number := n, folds := word.map Cell.fold, start := first.start, origin := first.origin, tag := tag, late := false }]
          else []) }

/-- Runs are ended one after another. -/
def RunsEnded (tag : Half) : List (List Cell) → List Cell → Spc → List Cell → Spc → Prop
  | [], cs, p, cs', p' => cs' = cs ∧ p' = p
  | r :: rs, cs, p, cs', p' => ∃ ms q, RunEnded tag r cs p ms q ∧ RunsEnded tag rs ms q cs' p'

/-- The open run is ended as a word, if it holds cells, and is empty (R109, R113). -/
def OpenRunEnded (tag : Half) (cs : List Cell) (p : Spc) (cs' : List Cell) (p' : Spc) : Prop :=
  ∃ q, RunEnded tag (p.openRun.filterMap (fun id => cs.find? (fun c => decide (c.id = id)))) cs p cs' q ∧
    p' = { q with openRun := [] }

/-- The number is that of a word with a mark other than NONE among the cells (R109, R111, R112). -/
def wordAmong (given : List Cell) (n : Byte) : Bool := given.any (fun c => decide (c.mark ≠ .unmarked ∧ c.wordNo = n))

/-- The cells once every word with a marked cell among those given is withdrawn (R114). -/
def cellsWithdrawn (given cs : List Cell) : List Cell :=
  cs.map (fun c => if wordAmong given c.wordNo then { c with mark := .unmarked } else c)

/-- SPC once those words are withdrawn (R114): off the queue, discarded in flight. -/
def spcWithdrawn (given : List Cell) (p : Spc) : Spc :=
  { p with
    queue := p.queue.filter (fun w => !wordAmong given w.number)
    flight := p.flight.map (fun f => if wordAmong given f.word.number then { f with discarded := true } else f) }

/-- The cells found by R109 step 2 from a point back, newest first: each the newest cell ending there, LIFT_PENDING cells passed
over, letter-class and not reopened. The number bounds the search, which only a series coming back on itself could reach. -/
def GatheredBack (cs : List Cell) : Nat → Point → List Cell → Prop
  | 0, _, ds => ds = []
  | n + 1, pt, ds =>
    let newest := newestEnding (cs.filter (fun c => decide (c.state ≠ .liftPending))) pt
    (∃ d es, newest = some d ∧ d.fold ≠ 0 ∧ d.reopened = false ∧ ds = d :: es ∧
      GatheredBack cs n { step := d.start, frac := d.fBefore } es) ∨
    ((∀ d, newest = some d → d.fold = 0 ∨ d.reopened = true) ∧ ds = [])

/-- A cell joins the open run if it is letter-class, and else ends it (R109 step 3). -/
def JoinedOrEnded (tag : Half) (c : Cell) (cs : List Cell) (p : Spc) (cs' : List Cell) (p' : Spc) : Prop :=
  (c.fold ≠ 0 → cs' = cs ∧ p' = { p with openRun := p.openRun ++ [c.id] }) ∧ (c.fold = 0 → OpenRunEnded tag cs p cs' p')

/-- A cell made in direct mode is reported (R109). The cells given hold it already. -/
def MadeReported (tag : Half) (c : Cell) (cs : List Cell) (p : Spc) (cs' : List Cell) (p' : Spc) : Prop :=
  (p.openRun = [] → ∃ found,
    GatheredBack cs cs.length { step := c.start, frac := c.fBefore } found ∧
    JoinedOrEnded tag c (cellsWithdrawn found cs) { spcWithdrawn found p with openRun := found.reverse.map Cell.id } cs' p') ∧
  ∀ id, p.openRun.getLast? = some id →
    ((∃ d, cs.find? (fun d => decide (d.id = id)) = some d ∧ d.start + d.advance = c.start ∧ d.fAfter = c.fBefore) →
      JoinedOrEnded tag c cs p cs' p') ∧
    ((∀ d, cs.find? (fun d => decide (d.id = id)) = some d → ¬ (d.start + d.advance = c.start ∧ d.fAfter = c.fBefore)) →
      ∃ ms q, OpenRunEnded tag cs p ms q ∧ JoinedOrEnded tag c ms q cs' p')

/-- The letter-class cells just before a place of a line, in text order. -/
def LettersBefore (line : List Cell) (i : Nat) (run : List Cell) : Prop :=
  ∃ pre, line.take i = pre ++ run ∧ (∀ c, c ∈ run → c.fold ≠ 0) ∧ ∀ c, pre.getLast? = some c → c.fold = 0

/-- The letter-class cells from a place of a line on. -/
def LettersFrom (line : List Cell) (i : Nat) (run : List Cell) : Prop :=
  ∃ post, line.drop i = run ++ post ∧ (∀ c, c ∈ run → c.fold ≠ 0) ∧ ∀ c, post.head? = some c → c.fold = 0

/-- A composed cell inserted at a place is reported (R111). The line and the cells given hold it already. -/
def InsertionReported (tag : Half) (k : Nat) (c : Cell) (line cs : List Cell) (p : Spc) (cs' : List Cell) (p' : Spc) : Prop :=
  ∃ before after, LettersBefore line k before ∧ LettersFrom line (k + 1) after ∧
    (c.fold ≠ 0 → cs' = cellsWithdrawn (before ++ after) cs ∧ p' = spcWithdrawn (before ++ after) p) ∧
    (c.fold = 0 →
      let split := if before = [] ∨ after = [] then [] else before ++ after
      let ended := cellsWithdrawn split before
      ((∀ d, d ∈ ended → d.mark = .unmarked) → RunEnded tag ended (cellsWithdrawn split cs) (spcWithdrawn split p) cs' p') ∧
      ((∃ d, d ∈ ended ∧ d.mark ≠ .unmarked) → cs' = cellsWithdrawn split cs ∧ p' = spcWithdrawn split p))

/-- The composed cell before the cursor is removed and reported (R101, R112). -/
def RemovalReported (cursor : Nat) (cs : List Cell) (p : Spc) (cs' : List Cell) (p' : Spc) : Prop :=
  let cells := cs.filter (fun c => decide (c.state = .composed))
  ∃ c before after, cells[cursor - 1]? = some c ∧ LettersBefore cells (cursor - 1) before ∧ LettersFrom cells cursor after ∧
    let given := if c.fold ≠ 0 then before ++ c :: after else if before = [] ∨ after = [] then [] else before ++ after
    cs' = (cellsWithdrawn given cs).filter (fun d => decide (d.id ≠ c.id)) ∧ p' = spcWithdrawn given p

/-- So many composed cells before the cursor are removed and reported, cell by cell (R112). -/
def RemovalsReported : Nat → Nat → List Cell → Spc → List Cell → Spc → Prop
  | 0, _, cs, p, cs', p' => cs' = cs ∧ p' = p
  | n + 1, cursor, cs, p, cs', p' =>
    ∃ ms q, RemovalReported cursor cs p ms q ∧ RemovalsReported n (cursor - 1) ms q cs' p'

/-- The runs of a line, in text order (section 6.3): each a maximal series of letter-class cells, no letter outside them. -/
def SplitInRuns : List Cell → List (List Cell) → Prop
  | line, [] => ∀ c, c ∈ line → c.fold = 0
  | line, r :: rs => ∃ gap rest, line = gap ++ r ++ rest ∧ (∀ c, c ∈ gap → c.fold = 0) ∧ r ≠ [] ∧
      (∀ c, c ∈ r → c.fold ≠ 0) ∧ (∀ c, rest.head? = some c → c.fold = 0) ∧ SplitInRuns rest rs

/-- The runs whose cells all carry the mark NONE (R113). -/
def runsUnmarked (runs : List (List Cell)) : List (List Cell) :=
  runs.filter (fun r => r.all (fun c => decide (c.mark = .unmarked)))

/-- Step 1 of a line-mode RETURN (R113, R122): every unmarked run of the composed line is ended in text order, then the open
run. -/
def LineRunsEnded (s : State) (cs' : List Cell) (p' : Spc) : Prop :=
  ∃ runs ms q, SplitInRuns (composedCells s) runs ∧
    RunsEnded s.lst.platenTag (runsUnmarked runs) s.lst.cells s.spc ms q ∧ OpenRunEnded s.lst.platenTag ms q cs' p'

/-- The start of the release of a MODE that leaves line mode (R113): the open run is ended, then every unmarked run of the
composed line but one at its very end, which becomes the open run. -/
def RunsEndedLeavingLine (s : State) (cs' : List Cell) (p' : Spc) : Prop :=
  ∃ ms q line kept runs q', OpenRunEnded s.lst.platenTag s.lst.cells s.spc ms q ∧
    ms.filter (fun c => decide (c.state = .composed)) = line ++ kept ∧
    (∃ last, LettersBefore (line ++ kept) (line ++ kept).length last ∧
      kept = if last.all (fun c => decide (c.mark = .unmarked)) then last else []) ∧
    SplitInRuns line runs ∧ RunsEnded s.lst.platenTag (runsUnmarked runs) ms q cs' q' ∧
    p' = { q' with openRun := kept.map Cell.id }

/-! ### Direct mode (R6 to R9, R32, R34, R35) -/

/-- The right limit (R32). -/
def limitOf (s : State) : Nat := if s.lst.mode.marginRelease then 3359 else s.esc.rm

/-- An end does not pass the right limit (R32). -/
def WithinLimit (s : State) (pt : Point) : Prop :=
  pt.step < limitOf s ∨ (pt.step = limitOf s ∧ pt.frac = 0)

/-- The reason of a failed margin test (R32). -/
def edgeReason (s : State) : Reason := if s.lst.mode.marginRelease then .limit else .margin

/-- The hot-zone test answers RETURN (R35). -/
def InHotZone (s : State) : Prop :=
  s.lst.mode.autoReturn = true ∧ 0 < s.esc.hotZone ∧ s.esc.rm - s.esc.hotZone ≤ s.lst.step

/-- A wheel-table entry (R144, R105): of the code's four bytes at table + 4 × code, modulo 32768, the petal, the width, the
hammer class in bits 0 and 1 and a second lift pass in bit 2, and the fold value, 28 to 30 and above 31 stored as 0. That an
unset table reads as 0 is notes/assumptions/23.md. -/
def EntryRead (s : State) (code : Byte) (e : WheelEntry) : Prop :=
  let byte := fun i => (Memory.read s.ram (((s.lst.wheelTable.getD 0).toNat + 4 * code.toNat + i) % 32768)).toNat
  e.petal = byte 0 ∧ e.width = byte 1 ∧ e.hammerClass = byte 2 % 4 ∧ e.passes = (if byte 2 / 4 % 2 = 1 then 2 else 1) ∧
    e.fold = (if 27 < byte 3 ∧ byte 3 ≠ 31 then 0 else byte 3)

/-- A product by the pitch selection (R26, R27, R28): the fixed ones, the custom advance, or under PS the width times the unit
size, the width 15 at most and for 0 the given one. -/
def productOf (s : State) (width other : Nat) : Nat :=
  match s.esc.pitch with
  | .p10 => 384
  | .p12 => 320
  | .p15 => 256
  | .custom => s.esc.customPitch
  | .ps => (if width = 0 then other else if 15 < width then 15 else width) * s.esc.unitSize

/-- The products of a character and of a space (R26 to R28). -/
def ProductsSay (s : State) (code : Byte) : Prop :=
  let space := (wheelEntry s 0x20).width
  let spaceWidth := if space = 0 then 4 else if 15 < space then 15 else space
  EntryRead s code (wheelEntry s code) ∧ charProduct s code = productOf s (wheelEntry s code).width spaceWidth ∧
    spaceProduct s = productOf s space 4

/-- The end of what is placed at the print point with a product (R29). -/
def endOf (s : State) (product : Nat) : Point :=
  { step := s.lst.step + (s.esc.frac + product) / 16, frac := (s.esc.frac + product) % 16 }

/-- The cell of a character placed at the print point (R1, R29). -/
def charCellAt (s : State) (a : Action) (st : CellState) : Cell :=
  let e := wheelEntry s a.code
  let total := s.esc.frac + charProduct s a.code
  { id := s.lst.nextId, code := a.code, blank := .no, petal := e.petal, wheel := s.lst.wheelNumber
    hammerClass := e.hammerClass, passes := e.passes, fold := e.fold, start := s.lst.step, fBefore := s.esc.frac
    advance := total / 16, fAfter := total % 16, state := st, mark := .unmarked, wordNo := 0, origin := a.origin
    reopened := false }

/-- A blank cell from the print point (R1). -/
def blankCellAt (s : State) (a : Action) (b : Blank) (st : CellState) (advance fAfter : Nat) : Cell :=
  { id := s.lst.nextId, code := 0x20, blank := b, petal := 0, wheel := s.lst.wheelNumber, hammerClass := 0, passes := 1
    fold := 0, start := s.lst.step, fBefore := s.esc.frac, advance := advance, fAfter := fAfter, state := st
    mark := .unmarked, wordNo := 0, origin := a.origin, reopened := false }

/-- The cell of a space at the print point (R1, R28, R29). -/
def spaceCellAt (s : State) (a : Action) (st : CellState) : Cell :=
  blankCellAt s a .space st ((s.esc.frac + spaceProduct s) / 16) ((s.esc.frac + spaceProduct s) % 16)

/-- The cell of a tab from the print point to a stop (R30). -/
def tabCellAt (s : State) (a : Action) (stop : Nat) (st : CellState) : Cell :=
  blankCellAt s a .tab st (stop - s.lst.step) 0

/-- A cell has been made in direct mode (R7 to R9): it stands at the end of the list, which SPC may re-mark, the point is at
its end, the bell test is made, the head is gone, and a non-blank cell's PRINT stands at the back of the Work List. -/
def MadeDirect (c : Cell) (a : Action) (rest : List Action) (s t : State) : Prop :=
  t.lst.cells.map Cell.unspelled = (s.lst.cells ++ [c]).map Cell.unspelled ∧
  t.lst = { s.lst with
    cells := t.lst.cells, nextId := s.lst.nextId + 1, step := c.start + c.advance, conv := .idle, holdFlag := false } ∧
  BellTested s t { step := c.start + c.advance, frac := c.fAfter } ∧ t.taq = rest ∧
  t.pmc = { s.pmc with work := s.pmc.work ++ (if c.blank = .no then
    [{ body := .print c.id c.start c.petal (classEnergy s.settings c.hammerClass), started := false, struck := 0, fed := 0 }]
    else []) } ∧
  t.dsp.message = (if a.kind = .char then none else s.dsp.message) ∧ DspKept s t ∧
  t.tmb = { s.tmb with
    rest := freshRest s, tone := t.tmb.tone, message := if a.kind = .char then none else s.tmb.message } ∧
  (s.lst.mode.spellingOn = false → t.lst.cells = s.lst.cells ++ [c] ∧ t.spc = s.spc) ∧
  (s.lst.mode.spellingOn = true → MadeReported s.lst.platenTag c (s.lst.cells ++ [c]) s.spc t.lst.cells t.spc) ∧
  OnlyChanges [.taq, .lst, .esc, .pmc, .spc, .dsp, .tmb] s t

/-- The stop a TAB goes to from a step (R30): the least one strictly past it, or none when none is. Stops rise, an invariant of
EscRangesKept. -/
def NextStopSays (tabs : List Nat) (p : Nat) : Prop :=
  (∀ t, nextStop tabs p = some t ↔ t ∈ tabs ∧ p < t ∧ ∀ u, u ∈ tabs → p < u → t ≤ u) ∧
    (nextStop tabs p = none ↔ ∀ u, u ∈ tabs → u ≤ p)

/-- A CHAR with host accesses among its reads of the wheel table (R138, R144), in direct mode or line mode: it is the CHAR of a
state whose RAM holds each word of the entries as it stood at its own read, and the RAM is left as the host has made it. That
the space's entry is read after the character's is the model's choice (notes/assumptions/43.md). -/
def CharReadsWordByWord (a : Action) (rest : List Action) (s : State) : Prop :=
  HeadConverts .char a rest s → MemoryCanonical s → s.hpa.coming ≠ [] →
    s.lst.mode.line = true ∨ a.code = 0x20 ∨ s.pmc.work.length < 16 →
    let table := (s.lst.wheelTable.getD 0).toNat
    let entry := fun (code : Byte) => [table + 4 * code.toNat, table + 4 * code.toNat + 2]
    let h := afterTraffic .lst s
    ∃ v t u, exec .convertChar s = .next t ∧ exec .convertChar v = .next u ∧ v = { h with ram := v.ram } ∧
      (∀ (n b : Nat), ((if a.code = 0x20 then [] else entry a.code) ++ entry 0x20)[n]? = some b →
        ramHalf v b = ramHalf (atAccess .lst s n) b) ∧
      t = { u with ram := h.ram }

/-- The products and entries of the wheel table (R26 to R28, R144), read word by word with any host accesses between (R138); a
TAB's stop (R30); and a CHAR, a space and a TAB made in direct mode (R7, R8, R9), with SPC's report of the cell (R109). -/
def Obligations.DirectModeMakesTheCell : Prop :=
  (∀ (s : State) (code : Byte), ProductsSay s code) ∧
  (∀ (s : State) (a : Action) (rest : List Action), TrafficSays s ∧ CharReadsWordByWord a rest s) ∧
  (∀ (tabs : List Nat) (p : Nat), tabs.Pairwise (· < ·) → NextStopSays tabs p) ∧
  ∀ (s : State) (a : Action) (rest : List Action), s.lst.mode.line = false → s.lst.cells.length < 160 →
    (HeadConverts .char a rest s → s.hpa.coming = [] →
      (a.code ≠ 0x20 → s.pmc.work.length < 16 → (wheelEntry s a.code).petal ≤ 95 →
        WithinLimit s (endOf s (charProduct s a.code)) →
        Completes .convertChar s (MadeDirect (charCellAt s a .queued) a rest s)) ∧
      (a.code = 0x20 → ¬ InHotZone s → WithinLimit s (endOf s (spaceProduct s)) →
        Completes .convertChar s (MadeDirect (spaceCellAt s a .printed) a rest s))) ∧
    (HeadConverts .tab a rest s → ∀ stop, nextStop s.esc.tabs s.lst.step = some stop →
      WithinLimit s { step := stop, frac := 0 } →
      Completes .convertTab s (MadeDirect (tabCellAt s a stop .printed) a rest s))

/-- A conversion command and the kind it converts. -/
def Converts (i : Instr) (k : KeyKind) : Prop :=
  (i, k) ∈ [(.convertChar, .char), (.convertTab, .tab), (.convertBackspace, .backspace), (.convertForward, .forward),
    (.convertRelocate, .relocate), (.convertReturn, .ret), (.convertIndex, .index), (.convertMode, .mode),
    (.convertMargin, .margin), (.convertTabset, .tabset), (.convertWheel, .wheel), (.convertPause, .pause),
    (.convertMark, .mark), (.convertShow, .showText), (Instr.convertAddWord, KeyKind.addWord)] ∨
  (k = .erase ∧ ∃ r, i = .convertErase r)

/-- While the head of TAQ is of another kind, or a condition of R6 fails, the action stays at the head: its conversion
changes nothing (R6, R49, R50). -/
def Obligations.ActionsWaitAtTheHead : Prop :=
  ∀ (s : State) (i : Instr) (k : KeyKind), Converts i k →
    (∀ a rest, s.taq = a :: rest → a.kind ≠ k) ∨ s.pmc.everReady = false ∨ ¬ NoStall s ∨ s.lst.conv ≠ .idle →
    ChangesNothing i s

/-- What a CHAR or TAB in direct mode meets in order instead (R7, R8, R9): the wait for room, the hot zone, NOT_ON_WHEEL,
NO_STOP, LINE_FULL, MARGIN or LIMIT. For a CHAR with host accesses to come, CharReadsWordByWord (DirectModeMakesTheCell) says
which state's refusal it is. -/
def Obligations.DirectModeRefusals : Prop :=
  ∀ (s : State) (a : Action) (rest : List Action), s.lst.mode.line = false →
    (HeadConverts .char a rest s →
      (a.code ≠ 0x20 →
        (16 ≤ s.pmc.work.length → ChangesNothing .convertChar s) ∧
        (s.pmc.work.length < 16 → s.hpa.coming = [] →
          (95 < (wheelEntry s a.code).petal → Completes .convertChar s (RefusedWith .notOnWheel s.lst.platenTag a rest s)) ∧
          ((wheelEntry s a.code).petal ≤ 95 → 160 ≤ s.lst.cells.length →
            Completes .convertChar s (RefusedWith .lineFull s.lst.platenTag a rest s)) ∧
          ((wheelEntry s a.code).petal ≤ 95 → s.lst.cells.length < 160 → ¬ WithinLimit s (endOf s (charProduct s a.code)) →
            Completes .convertChar s (RefusedWith (edgeReason s) s.lst.platenTag a rest s)))) ∧
      (a.code = 0x20 → s.hpa.coming = [] →
        (InHotZone s → Completes .convertChar s (fun t =>
          t.lst = { s.lst with conv := .draining false } ∧ OnlyChanges [.lst] s t)) ∧
        (¬ InHotZone s →
          (160 ≤ s.lst.cells.length → Completes .convertChar s (RefusedWith .lineFull s.lst.platenTag a rest s)) ∧
          (s.lst.cells.length < 160 → ¬ WithinLimit s (endOf s (spaceProduct s)) →
            Completes .convertChar s (RefusedWith (edgeReason s) s.lst.platenTag a rest s))))) ∧
    (HeadConverts .tab a rest s →
      (nextStop s.esc.tabs s.lst.step = none →
        Completes .convertTab s (RefusedWith .noStop s.lst.platenTag a rest s)) ∧
      (∀ stop, nextStop s.esc.tabs s.lst.step = some stop →
        (¬ WithinLimit s { step := stop, frac := 0 } →
          Completes .convertTab s (RefusedWith (edgeReason s) s.lst.platenTag a rest s)) ∧
        (WithinLimit s { step := stop, frac := 0 } → 160 ≤ s.lst.cells.length →
          Completes .convertTab s (RefusedWith .lineFull s.lst.platenTag a rest s))))

/-! ### Line mode (R14 to R16) -/

/-- A cell laid out from a point (R15 step 4, R29, R30). -/
def LaidFrom (tabs : List Nat) (pt : Point) (c d : Cell) : Prop :=
  d = { c with start := pt.step, fBefore := pt.frac, advance := d.advance, fAfter := d.fAfter } ∧
    match c.blank with
    | .tab => nextStop tabs pt.step = some (pt.step + d.advance) ∧ d.fAfter = 0
    | .no | .space => d.advance = (pt.frac + c.product) / 16 ∧ d.fAfter = (pt.frac + c.product) % 16

/-- Composed cells laid out one after another from a point (R15 step 4). -/
def LaidOut (tabs : List Nat) : Point → List Cell → List Cell → Prop
  | _, [], ds => ds = []
  | pt, c :: cs, d :: ds => LaidFrom tabs pt c d ∧ LaidOut tabs { step := d.start + d.advance, frac := d.fAfter } cs ds
  | _, _ :: _, [] => False

/-- An end passes a limit (R32). -/
def Passes (limit : Nat) (pt : Point) : Prop := limit < pt.step ∨ (pt.step = limit ∧ 0 < pt.frac)

/-- The end of the last cell of a line, or its origin (R14). -/
def endOfLine (origin : Point) (cs : List Cell) : Point :=
  match cs.getLast? with
  | some c => { step := c.start + c.advance, frac := c.fAfter }
  | none => origin

/-- The recompute of a line fails with a reason (R15 step 5, R32): NO_STOP when it cannot be laid out, a tab finding no stop
past its start; MARGIN or LIMIT when its last cell ends past RM, or past 3359 with MARGIN RELEASE on. -/
def LineFails (e : Esc) (release : Bool) (origin : Point) (line : List Cell) (r : Reason) : Prop :=
  ((∀ ds, ¬ LaidOut e.tabs origin line ds) ∧ r = .noStop) ∨
    ∃ ds, LaidOut e.tabs origin line ds ∧ ds ≠ [] ∧ Passes (if release then 3359 else e.rm) (endOfLine origin ds) ∧
      r = if release then .limit else .margin

/-- The recompute of a line succeeds (R15 steps 4 and 5): the cells as laid out. -/
def LineHolds (e : Esc) (release : Bool) (origin : Point) (line ds : List Cell) : Prop :=
  LaidOut e.tabs origin line ds ∧ ¬ Passes (if release then 3359 else e.rm) (endOfLine origin ds)

/-- A composed line has been changed to other cells with the cursor at a place (R14, R15): they form the tail of the list,
which SPC may re-mark, and the point is the end of the cell before the cursor. -/
def Recomposed (origin : Point) (ds : List Cell) (k : Nat) (s t : State) : Prop :=
  t.lst.cells.map Cell.unspelled = (settledCells s ++ ds).map Cell.unspelled ∧
    t.lst.cursor = k ∧ t.lst.composeOrigin = some origin ∧ point t = endOfLine origin (ds.take k)

/-- A CHAR, a space or a TAB in line mode (R15): NOT_ON_WHEEL, LINE_FULL, the recompute's own reason, or the insertion at the
cursor with every composed cell laid out anew, the cursor one further, the bell test, and SPC's report: the open run ended
before the first composed cell of a line (R113), then the insertion (R111). For a CHAR with host accesses to come,
CharReadsWordByWord (DirectModeMakesTheCell) says which state's insertion it is. -/
def Obligations.LineModeInsertion : Prop :=
  ∀ (s : State) (k : KeyKind) (a : Action) (rest : List Action), s.lst.mode.line = true → HeadConverts k a rest s →
    k = .char ∨ k = .tab → (k = .char → s.hpa.coming = []) →
    let i : Instr := if k = .char then .convertChar else .convertTab
    let c : Cell := if k = .tab then { blankCellAt s a .tab .composed 0 0 with start := 0, fBefore := 0 }
      else if a.code = 0x20 then spaceCellAt s a .composed else charCellAt s a .composed
    let line := (composedCells s).take s.lst.cursor ++ c :: (composedCells s).drop s.lst.cursor
    (k = .char ∧ a.code ≠ 0x20 ∧ 95 < (wheelEntry s a.code).petal →
      Completes i s (RefusedWith .notOnWheel s.lst.platenTag a rest s)) ∧
    (k = .tab ∨ a.code = 0x20 ∨ (wheelEntry s a.code).petal ≤ 95 →
      (160 ≤ s.lst.cells.length → Completes i s (RefusedWith .lineFull s.lst.platenTag a rest s)) ∧
      (s.lst.cells.length < 160 →
        (∀ r, LineFails s.esc s.lst.mode.marginRelease (originOf s) line r →
          Completes i s (RefusedWith r s.lst.platenTag a rest s)) ∧
        (∀ ds, LineHolds s.esc s.lst.mode.marginRelease (originOf s) line ds →
          WithinLimit s (endOfLine (originOf s) ds) ∧
          Completes i s (fun t =>
            Recomposed (originOf s) ds (s.lst.cursor + 1) s t ∧
            BellTested s t (endOfLine (originOf s) (ds.take (s.lst.cursor + 1))) ∧
            t.lst = { s.lst with
              cells := t.lst.cells, nextId := s.lst.nextId + 1, cursor := s.lst.cursor + 1
              composeOrigin := some (originOf s), step := t.lst.step, conv := .idle, holdFlag := false } ∧
            t.taq = rest ∧ t.dsp.message = (if k = .char then none else s.dsp.message) ∧ DspKept s t ∧
            t.tmb = { s.tmb with
              rest := freshRest s, tone := t.tmb.tone, message := if k = .char then none else s.tmb.message } ∧
            (s.lst.mode.spellingOn = false → t.lst.cells = settledCells s ++ ds ∧ t.spc = s.spc) ∧
            (s.lst.mode.spellingOn = true → ∃ ms q,
              (composedCells s = [] → OpenRunEnded s.lst.platenTag s.lst.cells s.spc ms q) ∧
              (composedCells s ≠ [] → ms = s.lst.cells ∧ q = s.spc) ∧
              InsertionReported s.lst.platenTag s.lst.cursor c ds
                (ms.filter (fun d => decide (d.state ≠ .composed)) ++ ds) q t.lst.cells t.spc) ∧
            OnlyChanges [.taq, .lst, .esc, .spc, .dsp, .tmb] s t))))

/-! ### Moving the point (R10 to R12, R16, R31) -/

/-- The action at the head has moved the point and nothing else: no cell, no operation, no notice. -/
def PointMoved (pt : Point) (rest : List Action) (s t : State) : Prop :=
  t.lst = { s.lst with step := pt.step, conv := .idle, holdFlag := false } ∧ t.esc = { s.esc with frac := pt.frac } ∧
    t.taq = rest ∧ t.tmb = { s.tmb with rest := freshRest s } ∧ OnlyChanges [.taq, .lst, .esc, .tmb] s t

/-- A cell ends at a point (R5): its end is the point in both the step and the fraction, and it is not COMPOSED. -/
def EndsAt (pt : Point) (c : Cell) : Prop :=
  c.state ≠ .composed ∧ c.start + c.advance = pt.step ∧ c.fAfter = pt.frac

/-- The newest cell ending at a point (R5): of the cells ending there the one nearest the end of the list, or none. -/
def NewestSays (cells : List Cell) (pt : Point) : Prop :=
  (∀ c, newestEnding cells pt = some c ↔
    EndsAt pt c ∧ ∃ before after, cells = before ++ c :: after ∧ ∀ d, d ∈ after → ¬ EndsAt pt d) ∧
  (newestEnding cells pt = none ↔ ∀ c, c ∈ cells → ¬ EndsAt pt c)

/-- One BACKSPACE step (R10): to the beginning of the newest cell ending at the point, else one space product back,
limited at (LM, 0), or at (0, 0) from left of LM. -/
def SteppedBack (s : State) (pt q : Point) : Prop :=
  match newestEnding s.lst.cells pt with
  | some c => q = { step := c.start, frac := c.fBefore }
  | none => q.frac < 16 ∧ 16 * q.step + q.frac =
      if s.esc.lm ≤ pt.step then max (16 * s.esc.lm) (16 * pt.step + pt.frac - spaceProduct s)
      else 16 * pt.step + pt.frac - spaceProduct s

/-- So many BACKSPACE steps (R10). -/
def SteppedBackTimes (s : State) : Nat → Point → Point → Prop
  | 0, pt, q => q = pt
  | n + 1, pt, q => ∃ m, SteppedBack s pt m ∧ SteppedBackTimes s n m q

/-- The newest cell ending at a point (R5). A BACKSPACE in direct mode, or in line mode with no composed cells, makes its count of steps (R10, R16); with composed
cells BACKSPACE, FORWARD and RELOCATE move the cursor alone, stopped at 0 and at n, and the point follows (R16, R14). -/
def Obligations.BackspaceStepsAndCursorMoves : Prop :=
  (∀ (cells : List Cell) (pt : Point), NewestSays cells pt) ∧
  (∀ (s : State) (a : Action) (rest : List Action), HeadConverts .backspace a rest s → composing s = false →
    ∃ q, SteppedBackTimes s (if a.arg.toNat = 0 then 1 else min a.arg.toNat 255) (point s) q ∧
      Completes .convertBackspace s (PointMoved q rest s)) ∧
  (∀ (s : State) (k : KeyKind) (a : Action) (rest : List Action), HeadConverts k a rest s → composing s = true →
    let n := (composedCells s).length
    let moved := fun (i : Instr) (c : Nat) => Completes i s (fun t =>
      t.lst = { s.lst with cursor := c, step := t.lst.step, conv := .idle, holdFlag := false } ∧
      point t = endOfLine (originOf s) ((composedCells s).take c) ∧ t.esc = { s.esc with frac := t.esc.frac } ∧
      t.taq = rest ∧ t.tmb = { s.tmb with rest := freshRest s } ∧ OnlyChanges [.taq, .lst, .esc, .tmb] s t)
    (k = .backspace → moved .convertBackspace (s.lst.cursor - (if a.arg.toNat = 0 then 1 else min a.arg.toNat 255))) ∧
    (k = .forward → moved .convertForward (min (s.lst.cursor + 1) n)) ∧
    (k = .relocate → moved .convertRelocate n))

/-- A FORWARD in direct mode (R11), with the space product of R28; and in line mode with no composed cells (R16). -/
def Obligations.ForwardMovesOneSpaceProduct : Prop :=
  ∀ (s : State) (a : Action) (rest : List Action), HeadConverts .forward a rest s → composing s = false →
    ∃ q : Point,
      (limitOf s ≤ s.lst.step → q = point s) ∧
      (s.lst.step < limitOf s → ∃ r : Point,
        r.frac < 16 ∧ 16 * r.step + r.frac = 16 * s.lst.step + s.esc.frac + spaceProduct s ∧
        (WithinLimit s r → q = r) ∧ (¬ WithinLimit s r → q = { step := limitOf s, frac := 0 })) ∧
      Completes .convertForward s (fun t =>
        BellTested s t q ∧ t.lst = { s.lst with step := q.step, conv := .idle, holdFlag := false } ∧ t.taq = rest ∧
        DspKept s t ∧ t.dsp.message = s.dsp.message ∧ t.tmb = { s.tmb with rest := freshRest s, tone := t.tmb.tone } ∧
        OnlyChanges [.taq, .lst, .esc, .dsp, .tmb] s t)

/-- A RELOCATE in direct mode (R12), and in line mode with no composed cells (R16). -/
def Obligations.RelocateMovesToTheGreatestEnd : Prop :=
  ∀ (s : State) (a : Action) (rest : List Action), HeadConverts .relocate a rest s → composing s = false →
    ∃ q : Point,
      ((∀ c, c ∈ s.lst.cells → c.state = .composed) → q = { step := s.esc.lm, frac := 0 }) ∧
      (∀ c, c ∈ s.lst.cells → c.state ≠ .composed →
        (∃ d, d ∈ s.lst.cells ∧ d.state ≠ .composed ∧ q = { step := d.start + d.advance, frac := d.fAfter }) ∧
        (c.start + c.advance < q.step ∨ (c.start + c.advance = q.step ∧ c.fAfter ≤ q.frac))) ∧
      Completes .convertRelocate s (PointMoved q rest s)

/-! ### RETURN, INDEX, release and close (R17 to R22) -/

/-- RETURN and INDEX begin their waits (R17, R19, R20), and INDEX is refused with NOT_EMPTY over composed cells. In line mode
with SPELLING ON a RETURN first ends every unmarked run of the composed line in text order, marked, numbered and queued as R106
gives, and then the open run (R113, R122). -/
def Obligations.ReturnAndIndexBegin : Prop :=
  ∀ (s : State) (a : Action) (rest : List Action),
    (HeadConverts .ret a rest s →
      (s.lst.mode.line = false → Completes .convertReturn s (fun t =>
        t.lst = { s.lst with conv := .draining false } ∧ OnlyChanges [.lst] s t)) ∧
      (s.lst.mode.line = true → Completes .convertReturn s (fun t =>
        t.lst = { s.lst with cells := t.lst.cells, conv := .spelling } ∧
        t.lst.cells.map Cell.unspelled = s.lst.cells.map Cell.unspelled ∧ OnlyChanges [.lst, .spc] s t ∧
        (s.lst.mode.spellingOn = false → t.lst.cells = s.lst.cells ∧ t.spc = s.spc) ∧
        (s.lst.mode.spellingOn = true → LineRunsEnded s t.lst.cells t.spc ∧ t.spc.openRun = [])))) ∧
    (HeadConverts .index a rest s →
      (composing s = true → Completes .convertIndex s (RefusedWith .notEmpty s.lst.platenTag a rest s)) ∧
      (composing s = false → Completes .convertIndex s (fun t =>
        t.lst = { s.lst with conv := .draining false } ∧ OnlyChanges [.lst] s t)))

/-- The composed cells that a line-mode RETURN releases (R18 step 1): none of the blank ones at the end. -/
def WithoutTrailingBlanks (cs kept : List Cell) : Prop :=
  ∃ blanks, cs = kept ++ blanks ∧ (∀ c, c ∈ blanks → c.blank ≠ .no) ∧
    (∀ c, kept.getLast? = some c → c.blank = .no)

/-- The places of the counted spaces of a line (R38): spaces with a non-blank cell before and after them. -/
def countedPlaces (cells : List Cell) : List Nat :=
  (List.range cells.length).filter (fun i =>
    (cells[i]?).any (fun c => decide (c.blank = .space)) && (cells.take i).any (fun c => decide (c.blank = .no)) &&
      (cells.drop (i + 1)).any (fun c => decide (c.blank = .no)))

/-- The end step of a line's last cell (R38). -/
def lastStep (line : List Cell) : Nat :=
  match line.getLast? with
  | some c => c.start + c.advance
  | none => 0

/-- A line is RAGGED (R38): no counted space, nothing to add, or more than two space advances for each. -/
def Ragged (rm spaceAdv : Nat) (line : List Cell) : Prop :=
  (countedPlaces line).length = 0 ∨ rm ≤ lastStep line ∨
    (countedPlaces line).length * (2 * spaceAdv) < rm - lastStep line

/-- A line is justified to RM (R39): of n counted spaces the first E mod n gain E div n + 1 steps and the others E div n, every
start moves right by what the spaces before it gained, and nothing else changes. -/
def Justified (rm : Nat) (cells ds : List Cell) : Prop :=
  let places := countedPlaces cells
  let q := (rm - lastStep cells) / places.length
  let r := (rm - lastStep cells) % places.length
  ds.length = cells.length ∧ ∀ i c, cells[i]? = some c →
    let k := (places.filter (fun j => decide (j < i))).length
    ds[i]? = some { c with
      start := c.start + (k * q + min k r)
      advance := c.advance + if i ∈ places then (if k < r then q + 1 else q) else 0 }

/-- SPELL_HOLD_TEST (R17 steps 2 and 3, R18 steps 1 and 2, R122): it waits for PENDING cells and add requests; it refuses
with SPELL_HOLD, setting the hold flag; or the release begins, with the line justified or declared RAGGED. Where the cursor and
the point stand from there to the end of the release is the model's choice (notes/assumptions/15.md). -/
def Obligations.SpellHoldRefusesOrReleases : Prop :=
  ∀ (s : State) (a : Action) (rest : List Action), Powered s → s.taq = a :: rest → a.kind = .ret → s.lst.conv = .spelling →
    NoStall s →
    ((∃ c, c ∈ s.lst.cells ∧ c.mark = .pending) ∨ s.spc.requests ≠ [] → ChangesNothing .spellHoldTest s) ∧
    ((∀ c, c ∈ s.lst.cells → c.mark ≠ .pending) → s.spc.requests = [] →
      let held := s.lst.mode.spellingHold = true ∧ (∃ c, c ∈ s.lst.cells ∧ c.mark = .miss) ∧ s.lst.holdFlag = false
      (held → Completes .spellHoldTest s (fun t =>
        t.ntw = { s.ntw with holding := s.ntw.holding ++ [
          { kind := .refused, ragged := false, detail := 9, origin := a.origin, tag := s.lst.platenTag, position := a.seq }] } ∧
        t.taq = rest ∧ t.lst = { s.lst with conv := .idle, holdFlag := true } ∧ OnlyChanges [.ntw, .taq, .lst] s t)) ∧
      (¬ held → ∀ kept, WithoutTrailingBlanks (composedCells s) kept →
        (kept = [] → Completes .spellHoldTest s (fun t =>
          t.lst = { s.lst with
            cells := settledCells s, cursor := 0, composeOrigin := none, step := (originOf s).step, holdFlag := false
            ragged := false, conv := .draining true } ∧
          t.esc = { s.esc with frac := (originOf s).frac } ∧ t.tmb = { s.tmb with rest := freshRest s } ∧
          OnlyChanges [.lst, .esc, .tmb] s t)) ∧
        (kept ≠ [] → ∃ ds ragged,
          (s.lst.mode.justify = false → ds = kept ∧ ragged = false) ∧
          (s.lst.mode.justify = true →
            (Ragged s.esc.rm (spaceProduct s / 16) kept → ds = kept ∧ ragged = true) ∧
            (¬ Ragged s.esc.rm (spaceProduct s / 16) kept → Justified s.esc.rm kept ds ∧ ragged = false ∧
              (endOfLine (originOf s) ds).step = s.esc.rm ∧ ds.map Cell.fAfter = kept.map Cell.fAfter)) ∧
          Completes .spellHoldTest s (fun t =>
            t.lst = { s.lst with
              cells := settledCells s ++ ds, cursor := min s.lst.cursor ds.length, composeOrigin := some (originOf s)
              step := t.lst.step, holdFlag := false, ragged := ragged, conv := .releasing true } ∧
            point t = endOfLine (originOf s) (ds.take (min s.lst.cursor ds.length)) ∧
            t.esc = { s.esc with frac := t.esc.frac } ∧ t.tmb = { s.tmb with rest := freshRest s } ∧
            OnlyChanges [.lst, .esc, .tmb] s t))))

/-- LINE_RELEASE_CELL (R18 steps 3 and 4, R22): the next composed cell becomes PRINTED if blank, else QUEUED with its PRINT
once there is room; after the last one the point is at its end and the close follows, or the MODE takes effect. That point and
cursor stand until then, and the mode bits too, is the model's choice (notes/assumptions/15.md). -/
def Obligations.ReleaseTakesCellsInTextOrder : Prop :=
  ∀ (s : State) (a : Action) (rest : List Action) (closes : Bool) (c : Cell) (cs : List Cell), Powered s →
    CellsIdentified s → s.taq = a :: rest → s.lst.conv = .releasing closes → composedCells s = c :: cs →
    (closes = false → a.kind = .mode) →
    (c.blank = .no ∧ 16 ≤ s.pmc.work.length → ChangesNothing .lineReleaseCell s) ∧
    (c.blank ≠ .no ∨ s.pmc.work.length < 16 → Completes .lineReleaseCell s (fun t =>
      t.lst.cells = s.lst.cells.map (fun d =>
        if d.id = c.id then { d with state := if c.blank = .no then .queued else .printed } else d) ∧
      t.pmc = { s.pmc with work := s.pmc.work ++ (if c.blank = .no then
        [{ body := .print c.id c.start c.petal (classEnergy s.settings c.hammerClass), started := false, struck := 0, fed := 0 }]
        else []) } ∧
      (cs ≠ [] → t.lst = { s.lst with cells := t.lst.cells } ∧ OnlyChanges [.lst, .pmc] s t) ∧
      (cs = [] → closes = true →
        t.lst = { s.lst with
          cells := t.lst.cells, step := c.start + c.advance, cursor := 0, composeOrigin := none, conv := .draining true } ∧
        t.esc = { s.esc with frac := c.fAfter } ∧ OnlyChanges [.lst, .esc, .pmc] s t) ∧
      (cs = [] → closes = false →
        t.lst = { s.lst with
          cells := t.lst.cells, step := c.start + c.advance, cursor := 0, composeOrigin := none, conv := .idle
          holdFlag := false, mode := ModeBits.ofByte a.code } ∧
        t.esc = { s.esc with frac := c.fAfter, pitch := (Pitch.ofNat? a.arg.toNat).getD s.esc.pitch } ∧ t.taq = rest ∧
        t.spc = { s.spc with openRun :=
          if s.lst.mode.spellingOn = (ModeBits.ofByte a.code).spellingOn then s.spc.openRun else [] } ∧
        OnlyChanges [.taq, .lst, .esc, .pmc, .spc] s t)))

/-- The half-lines a close feeds (R20 step 5, R43). -/
def feedOf (a : Action) (s : State) : Int :=
  if a.kind = .index then max (-16) (min 16 a.arg.toInt) else (s.settings.lineSpacing : Int)

/-- LINE_CLOSE (R20, R21, R86, R87): the non-blank cells pass to CMM, which keeps the newest 256; the tag, the point, the
FEED and LINE_DONE; the entries of the new tag come back as cells; with SPELLING ON SPC ends the open run, and all its
words become late (R119). That a stall holds a close not begun, and does not hold one begun by a release, is DEDUCED from R6, R50
and R150 (notes/assumptions/28.md). -/
def Obligations.LineCloseHandsOverAndReopens : Prop :=
  ∀ (s : State) (a : Action) (rest : List Action) (begun : Bool), Powered s → s.taq = a :: rest →
    s.lst.conv = .draining begun → s.cmm.length ≤ 256 →
    let drains := ∀ c, c ∈ s.lst.cells → c.state ≠ .queued ∧ c.state ≠ .liftPending
    let feed := feedOf a s
    let newTag := s.lst.platenTag + BitVec.ofInt 16 feed
    let es := (s.lst.cells.filter (fun c => decide (c.blank = .no))).map (entryOf s.lst.platenTag)
    let joined := (s.cmm ++ es).drop ((s.cmm ++ es).length - 256)
    (¬ drains ∨ 16 ≤ s.pmc.work.length ∨ (begun = false ∧ ¬ NoStall s) → ChangesNothing .lineClose s) ∧
    (drains → s.pmc.work.length < 16 → begun = true ∨ NoStall s → Completes .lineClose s (fun t =>
      t.cmm = joined.filter (fun e => decide (e.tag ≠ newTag)) ∧
      t.lst.cells.map (entryOf newTag) = joined.filter (fun e => decide (e.tag = newTag)) ∧
      (∀ c, c ∈ t.lst.cells → c.state = .printed ∧ c.blank = .no ∧ c.mark = .unmarked ∧ c.reopened = true) ∧
      t.lst = { s.lst with
        cells := t.lst.cells, nextId := t.lst.nextId, cursor := 0, composeOrigin := none, holdFlag := false
        platenTag := newTag, step := if a.kind = .index then s.lst.step else s.esc.lm, conv := .idle, ragged := false } ∧
      t.esc = { s.esc with bellFlag := false, frac := if a.kind = .index then s.esc.frac else 0 } ∧
      t.pmc = { s.pmc with work := s.pmc.work ++ (if feed = 0 then [] else
        [{ body := .feed feed, started := false, struck := 0, fed := 0 }]) } ∧
      t.ntw = { s.ntw with holding := s.ntw.holding ++ [
        { kind := .lineDone, ragged := s.lst.ragged, detail := BitVec.ofNat 8 es.length, origin := a.origin
          tag := s.lst.platenTag, position := half t.lst.step }] } ∧
      t.taq = rest ∧ t.dsp.message = (if a.kind = .char then none else s.dsp.message) ∧ t.dsp.tone = s.dsp.tone ∧
      DspKept s t ∧
      t.tmb = { s.tmb with rest := freshRest s, message := if a.kind = .char then none else s.tmb.message } ∧
      (∀ w, w ∈ t.spc.queue → w.late = true) ∧ (∀ f, t.spc.flight = some f → f.word.late = true) ∧
      t.spc.requests = s.spc.requests ∧ t.spc.lastMiss = s.spc.lastMiss ∧
      (s.lst.mode.spellingOn = true → t.spc.openRun = []) ∧
      (∃ ms q, (s.lst.mode.spellingOn = true → OpenRunEnded s.lst.platenTag s.lst.cells s.spc ms q) ∧
        (s.lst.mode.spellingOn = false → q = s.spc) ∧
        t.spc = { q with
          queue := q.queue.map (fun w => { w with late := true })
          flight := q.flight.map (fun f => { f with word := { f.word with late := true } }) }) ∧
      OnlyChanges [.taq, .lst, .esc, .pmc, .cmm, .spc, .dsp, .ntw, .tmb] s t))

/-! ### MODE, MARGIN, TABSET (R22, R26, R33, R36, R37) -/

/-- A MODE (R22, R26): it begins a release, ending SPC's runs (R113), is refused, or its bits and its pitch take effect; on entry
into line mode the open run is ended (R113), and a change of SPELLING ON leaves the open run empty (R105). That the bits and the
pitch stand while the release goes on is the model's choice (notes/assumptions/15.md). -/
def Obligations.ModeTakesEffect : Prop :=
  ∀ (s : State) (a : Action) (rest : List Action), HeadConverts .mode a rest s →
    let m := ModeBits.ofByte a.code
    let fails := m.line = true ∧ composing s = true ∧ s.lst.mode.marginRelease = true ∧ m.marginRelease = false ∧
      ∃ r, LineFails s.esc false (originOf s) (composedCells s) r
    (composing s = true → m.line = false → Completes .convertMode s (fun t =>
      t.lst = { s.lst with cells := t.lst.cells, conv := .releasing false } ∧
      t.lst.cells.map Cell.unspelled = s.lst.cells.map Cell.unspelled ∧ t.tmb = { s.tmb with rest := freshRest s } ∧
      (s.lst.mode.spellingOn = false → t.lst.cells = s.lst.cells ∧ t.spc = s.spc) ∧
      (s.lst.mode.spellingOn = true → RunsEndedLeavingLine s t.lst.cells t.spc) ∧ OnlyChanges [.lst, .spc, .tmb] s t)) ∧
    (fails → Completes .convertMode s (RefusedWith .margin s.lst.platenTag a rest s)) ∧
    (¬ (composing s = true ∧ m.line = false) → ¬ fails → Completes .convertMode s (fun t =>
      t.lst = { s.lst with
        cells := t.lst.cells, mode := m, conv := .idle, holdFlag := false
        cursor := if s.lst.mode.line = false ∧ m.line = true then 0 else s.lst.cursor } ∧
      t.lst.cells.map Cell.unspelled = s.lst.cells.map Cell.unspelled ∧
      t.esc = { s.esc with pitch := if 4 < a.arg.toNat then s.esc.pitch else t.esc.pitch } ∧
      (a.arg = 0 → t.esc.pitch = .p10) ∧ (a.arg = 1 → t.esc.pitch = .p12) ∧ (a.arg = 2 → t.esc.pitch = .p15) ∧
      (a.arg = 3 → t.esc.pitch = .custom) ∧ (a.arg = 4 → t.esc.pitch = .ps) ∧
      t.taq = rest ∧ t.tmb = { s.tmb with rest := freshRest s } ∧
      (m.spellingOn ≠ s.lst.mode.spellingOn → t.spc.openRun = []) ∧
      (s.lst.mode.line = false ∧ m.line = true ∧ s.lst.mode.spellingOn = true →
        OpenRunEnded s.lst.platenTag s.lst.cells s.spc t.lst.cells t.spc) ∧
      (¬ (s.lst.mode.line = false ∧ m.line = true ∧ s.lst.mode.spellingOn = true) → t.lst.cells = s.lst.cells ∧
        t.spc = { s.spc with openRun := if m.spellingOn = s.lst.mode.spellingOn then s.spc.openRun else [] }) ∧
      OnlyChanges [.taq, .lst, .esc, .spc, .tmb] s t))

/-- ESC has taken another set of margins or stops from the action at the head (R15, R33, R37): over composed cells the line
is laid out anew, or the action is refused and ESC is as it was. -/
def EscChanged (i : Instr) (e : Esc) (a : Action) (rest : List Action) (s : State) : Prop :=
  (composing s = false → Completes i s (fun t =>
    t.esc = e ∧ t.lst = { s.lst with conv := .idle, holdFlag := false } ∧ t.taq = rest ∧
    t.tmb = { s.tmb with rest := freshRest s } ∧ OnlyChanges [.taq, .lst, .esc, .tmb] s t)) ∧
  (composing s = true →
    (∀ r, LineFails e s.lst.mode.marginRelease (originOf s) (composedCells s) r →
      Completes i s (RefusedWith r s.lst.platenTag a rest s)) ∧
    (∀ ds, LineHolds e s.lst.mode.marginRelease (originOf s) (composedCells s) ds →
      Completes i s (fun t =>
        Recomposed (originOf s) ds s.lst.cursor s t ∧ t.lst.cells = settledCells s ++ ds ∧ t.esc = { e with frac := t.esc.frac } ∧
        t.lst = { s.lst with
          cells := t.lst.cells, composeOrigin := some (originOf s), step := t.lst.step, conv := .idle, holdFlag := false } ∧
        t.taq = rest ∧ t.tmb = { s.tmb with rest := freshRest s } ∧ OnlyChanges [.taq, .lst, .esc, .tmb] s t)))

/-- A MARGIN (R33) and a TABSET (R36, R37). -/
def Obligations.MarginAndTabsetChangeEsc : Prop :=
  ∀ (s : State) (a : Action) (rest : List Action),
    (HeadConverts .margin a rest s →
      let p := if a.arg = 0xFFFF then s.lst.step else a.arg.toNat
      let lm := min p 3119
      (a.code = 0 → EscChanged .convertMargin
        { s.esc with lm := lm, rm := if s.esc.rm < lm + 240 then lm + 240 else s.esc.rm } a rest s) ∧
      (a.code ≠ 0 → EscChanged .convertMargin
        { s.esc with rm := if 3359 < p ∨ 3359 < s.esc.lm + 240 then 3359 else if p < s.esc.lm + 240 then s.esc.lm + 240 else p }
        a rest s)) ∧
    (HeadConverts .tabset a rest s →
      let p := s.lst.step
      let refused := fun (r : Reason) => Completes .convertTabset s (RefusedWith r s.lst.platenTag a rest s)
      (a.code = 0 →
        (p ∈ s.esc.tabs → refused .already) ∧
        (p ∉ s.esc.tabs → 16 ≤ s.esc.tabs.length → refused .tabsFull) ∧
        (p ∉ s.esc.tabs → s.esc.tabs.length < 16 → stopsRise s.esc.tabs = true →
          ∃ tabs, stopsRise tabs = true ∧ (∀ q, q ∈ tabs ↔ q = p ∨ q ∈ s.esc.tabs) ∧
            EscChanged .convertTabset { s.esc with tabs := tabs } a rest s)) ∧
      (a.code = 1 →
        (p ∉ s.esc.tabs → refused .noStop) ∧
        (p ∈ s.esc.tabs →
          EscChanged .convertTabset { s.esc with tabs := s.esc.tabs.filter (fun q => decide (q ≠ p)) } a rest s)) ∧
      (a.code = 2 → s.esc.tabs ≠ [] → EscChanged .convertTabset { s.esc with tabs := [] } a rest s) ∧
      (a.code = 2 → s.esc.tabs = [] → Completes .convertTabset s (fun t =>
        t.lst = { s.lst with conv := .idle, holdFlag := false } ∧ t.taq = rest ∧ t.tmb = { s.tmb with rest := freshRest s } ∧
        OnlyChanges [.taq, .lst, .tmb] s t)) ∧
      (2 < a.code.toNat → refused .noStop))

/-! ### WHEEL, PAUSE, MARK, SHOW, ADD_WORD (R56, R57, R120, R130) -/

/-- An action of a kind that makes no cell and moves no point has left the head (R6, R78). -/
def HeadLeft (rest : List Action) (t : State) : Prop :=
  t.taq = rest ∧ t.tmb.rest = freshRest t ∧ t.lst.conv = .idle ∧ t.lst.holdFlag = false

/-- A byte of a message as it is shown (R130). -/
def shownByte (b : Byte) : Byte := if b.toNat < 0x20 ∨ 0x7E < b.toNat then 0x20 else b

/-- WHEEL, PAUSE, MARK, SHOW and ADD_WORD at their conversions; each byte of a SHOW as the RAM holds it at its own read, whatever
host accesses fall between the reads (R130, R138). -/
def Obligations.WheelPauseMarkShowAddWord : Prop :=
  ∀ (s : State) (a : Action) (rest : List Action),
    let placed := fun (i : Instr) (b : OpBody) =>
      (16 ≤ s.pmc.work.length → ChangesNothing i s) ∧
      (s.pmc.work.length < 16 → Completes i s (fun t =>
        t.pmc = { s.pmc with work := s.pmc.work ++ [{ body := b, started := false, struck := 0, fed := 0 }] } ∧
        t.lst = { s.lst with conv := .idle, holdFlag := false } ∧ t.tmb = { s.tmb with rest := freshRest s } ∧
        HeadLeft rest t ∧ OnlyChanges [.taq, .lst, .pmc, .tmb] s t))
    (HeadConverts .wheel a rest s → Completes .convertWheel s (fun t =>
      t.lst = { s.lst with
        wheelNumber := a.code.toNat, wheelTable := some a.arg, conv := .idle, holdFlag := false } ∧
      t.tmb = { s.tmb with rest := freshRest s } ∧ HeadLeft rest t ∧ OnlyChanges [.taq, .lst, .tmb] s t)) ∧
    (HeadConverts .pause a rest s → placed .convertPause
      (.pause (10 * (if a.arg.toNat = 0 then 1 else if 6000 < a.arg.toNat then 6000 else a.arg.toNat)))) ∧
    (HeadConverts .mark a rest s → placed .convertMark (.mark a.arg a.origin)) ∧
    (HeadConverts .showText a rest s → TrafficSays s ∧ Completes .convertShow s (fun t =>
      (∃ codes, t.dsp.message = some codes ∧ codes.length = 32 ∧ ∀ i, i < 32 →
        codes[i]? = some
          (if i < a.code.toNat then shownByte (ramByte (atAccess .lst s i) (a.arg.toNat + i)) else 0x20)) ∧
      t.tmb = { s.tmb with rest := freshRest s, message := ticksOf s (100 * s.settings.messageTime) } ∧
      t.dsp.tone = s.dsp.tone ∧ DspKept s t ∧ t.lst = { s.lst with conv := .idle, holdFlag := false } ∧
      HeadLeft rest t ∧ OnlyChanges [.taq, .lst, .dsp, .tmb] (afterTraffic .lst s) t)) ∧
    (HeadConverts .addWord a rest s →
      (s.spc.lastMiss = none → Completes .convertAddWord s (RefusedWith .noWord s.lst.platenTag a rest s)) ∧
      (∀ folds, s.spc.lastMiss = some folds → Completes .convertAddWord s (fun t =>
        t.spc = { s.spc with
          lastMiss := none
          requests := s.spc.requests ++ [{ folds := folds, origin := a.origin, seq := a.seq, finding := none }] } ∧
        t.lst = { s.lst with conv := .idle, holdFlag := false } ∧ t.tmb = { s.tmb with rest := freshRest s } ∧
        HeadLeft rest t ∧ OnlyChanges [.taq, .lst, .spc, .tmb] s t)))

/-! ### ERASE (R89 to R103) -/

/-- How many composed cells before the cursor an ERASE removes (R101): up to the count, all, or the blanks and then the run
of letter cells before them (R97). -/
def composedRemoved (s : State) (a : Action) : Nat :=
  let before := ((composedCells s).take s.lst.cursor).reverse
  if a.code ≠ 0 then
    (before.takeWhile (fun c => decide (c.blank ≠ .no))).length +
      ((before.dropWhile (fun c => decide (c.blank ≠ .no))).takeWhile
        (fun c => decide (c.blank = .no ∧ c.fold ≠ 0))).length
  else if a.arg.toNat = 0 then s.lst.cursor else min (min a.arg.toNat 255) s.lst.cursor

/-- CONVERT_ERASE (R89, R101, R102): over non-composed cells the tape test and the walk's beginning; over composed cells the
removal before the cursor, reported to SPC cell by cell (R112), with what remains laid out from the origin, or
NOTHING_TO_ERASE. That with SPELLING ON off the removal withdraws nothing is the model's choice (notes/assumptions/44.md). -/
def Obligations.EraseBeginsOrEditsTheLine : Prop :=
  ∀ (s : State) (a : Action) (rest : List Action) (r : Sensors), HeadConverts .erase a rest s →
    (composing s = false →
      (r.tape = true → Completes (.convertErase r) s (fun t =>
        t.lst = { s.lst with conv := .erasing {
          mode := if a.code ≠ 0 then .word else if a.arg.toNat = 0 then .lineStart else .count
          remaining := if a.code ≠ 0 then 0 else min a.arg.toNat 255, phase := .blanks, acted := false } } ∧
        t.pmc = { s.pmc with sensors := r } ∧ OnlyChanges [.lst, .pmc] s t)) ∧
      (r.tape = false → Completes (.convertErase r) s
        (RefusedWith .tapeEnd s.lst.platenTag a rest (s.withPmc { s.pmc with sensors := r })))) ∧
    (composing s = true → CellsIdentified s →
      let k := composedRemoved s a
      let left := (composedCells s).take (s.lst.cursor - k) ++ (composedCells s).drop s.lst.cursor
      (k = 0 → Completes (.convertErase r) s (RefusedWith .nothingToErase s.lst.platenTag a rest s)) ∧
      (∀ ds, 0 < k → LaidOut s.esc.tabs (originOf s) left ds → Completes (.convertErase r) s (fun t =>
        t.lst.cells.map Cell.unspelled = (settledCells s ++ ds).map Cell.unspelled ∧
        t.lst = { s.lst with
          cells := t.lst.cells, cursor := s.lst.cursor - k, composeOrigin := if left = [] then none else some (originOf s)
          step := t.lst.step, conv := .idle, holdFlag := false } ∧
        point t = endOfLine (originOf s) (ds.take (s.lst.cursor - k)) ∧ t.esc = { s.esc with frac := t.esc.frac } ∧
        t.taq = rest ∧ t.tmb = { s.tmb with rest := freshRest s } ∧
        (s.lst.mode.spellingOn = false → t.lst.cells = settledCells s ++ ds ∧ t.spc = s.spc) ∧
        (s.lst.mode.spellingOn = true → ∃ ms es, RemovalsReported k s.lst.cursor s.lst.cells s.spc ms t.spc ∧
          LaidOut s.esc.tabs (originOf s) (ms.filter (fun c => decide (c.state = .composed))) es ∧
          t.lst.cells = ms.filter (fun c => decide (c.state ≠ .composed)) ++ es) ∧
        OnlyChanges [.taq, .lst, .esc, .spc, .tmb] s t)))

/-- The mode's own test lets the step go on (R95, R96, R97), to a phase; of a step that waited for room too, with LM as it stands
(the model's choice, notes/assumptions/34.md). -/
def ModeGoesOn (s : State) (w : Walk) (c : Cell) (ph : ErasePhase) : Prop :=
  match w.mode with
  | .count => ph = w.phase
  | .lineStart => ph = w.phase ∧ (s.esc.lm < s.lst.step ∨ (s.lst.step = s.esc.lm ∧ 0 < s.esc.frac))
  | .word =>
    (c.blank ≠ .no ∧ w.phase = .blanks ∧ ph = .blanks) ∨ (c.blank = .no ∧ c.fold ≠ 0 ∧ ph = .letters)

/-- The PRINT of a cell stands on the Work List not started (R60). -/
def PrintWaits (s : State) (id : Nat) : Prop :=
  ∃ o st pt e, o ∈ s.pmc.work ∧ o.body = .print id st pt e ∧ o.started = false

/-- A step of the walk has taken its target (R94, R110): the point is at its beginning, the count is one less, the walk goes
on or, at a spent count, the ERASE leaves; SPC has the cell as erased: the open run keeps what stood before it, and its word, if
it has one, is withdrawn, the mark of every other word's cell as it was. The cells given are those the step leaves. That a pass
over a LIFT_PENDING cell does not count as having acted is DEDUCED (notes/assumptions/16.md). -/
def WalkStepped (w : Walk) (c : Cell) (ph : ErasePhase) (acts : Bool) (rest : List Action) (cells : List Cell) (s t : State) :
    Prop :=
  (if w.mode = .count ∧ w.remaining ≤ 1 then
    t.lst = { s.lst with cells := t.lst.cells, step := c.start, conv := .idle, holdFlag := false } ∧ t.taq = rest
   else
    t.lst = { s.lst with
      cells := t.lst.cells, step := c.start
      conv := .erasing { w with remaining := w.remaining - 1, phase := ph, acted := w.acted || acts } } ∧ t.taq = s.taq) ∧
  t.esc = { s.esc with frac := c.fBefore } ∧
  t.lst.cells = cellsWithdrawn [c] cells ∧
  t.spc = { spcWithdrawn [c] s.spc with openRun := s.spc.openRun.takeWhile (fun id => decide (id ≠ c.id)) }

/-- ERASE_STEP by its target (R90 to R97): the walk's end, the pass over a LIFT_PENDING cell, WRONG_WHEEL, a blank cell and
an unstarted PRINT removed, a LIFT placed once there is room. A step that waited for room is tested afresh, the mode's test with LM
as it then stands, which is the model's choice (notes/assumptions/34.md); that a pass over is no acting is notes/assumptions/16.md. -/
def Obligations.EraseStepByItsTarget : Prop :=
  ∀ (s : State) (a : Action) (rest : List Action) (w : Walk), Powered s → s.taq = a :: rest → a.kind = .erase →
    s.lst.conv = .erasing w → w.acted = true ∨ NoStall s →
    let ends := newestEnding s.lst.cells (point s) = none ∨
      ∃ c, newestEnding s.lst.cells (point s) = some c ∧ ∀ ph, ¬ ModeGoesOn s w c ph
    (ends → w.acted = true → Completes .eraseStep s (fun t =>
      t.lst = { s.lst with conv := .idle, holdFlag := false } ∧ t.taq = rest ∧ OnlyChanges [.taq, .lst] s t)) ∧
    (ends → w.acted = false → Completes .eraseStep s (RefusedWith .nothingToErase s.lst.platenTag a rest s)) ∧
    (∀ c ph, newestEnding s.lst.cells (point s) = some c → ModeGoesOn s w c ph →
      let others := s.lst.cells.filter (fun d => decide (d.id ≠ c.id))
      let changed := fun (work : List Operation) (cells : List Cell) => Completes .eraseStep s (fun t =>
        WalkStepped w c ph true rest cells s t ∧ t.pmc = { s.pmc with work := work } ∧
        (w.acted = true → t.tmb.rest = if work = [] then freshRest s else s.tmb.rest) ∧
        (w.acted = false → t.tmb.rest = freshRest s) ∧ t.tmb = { s.tmb with rest := t.tmb.rest } ∧
        OnlyChanges [.taq, .lst, .esc, .pmc, .spc, .tmb] s t)
      (c.state = .liftPending → Completes .eraseStep s (fun t =>
        WalkStepped w c ph false rest s.lst.cells s t ∧ OnlyChanges [.taq, .lst, .esc, .spc] s t)) ∧
      (c.state ≠ .liftPending →
        (c.blank = .no → c.wheel ≠ s.lst.wheelNumber →
          Completes .eraseStep s (RefusedWith .wrongWheel (half w.remaining) a rest s)) ∧
        (c.blank ≠ .no → Completes .eraseStep s (fun t =>
          WalkStepped w c ph true rest others s t ∧
          t.tmb = { s.tmb with rest := if w.acted = true then s.tmb.rest else freshRest s } ∧
          OnlyChanges [.taq, .lst, .esc, .spc, .tmb] s t)) ∧
        (c.blank = .no → c.wheel = s.lst.wheelNumber →
          (c.state = .queued → PrintWaits s c.id →
            changed (s.pmc.work.filter (fun o => match o.body with
              | .print id _ _ _ => decide (id ≠ c.id) || o.started
              | .lift _ _ _ _ _ | .feed _ | .pause _ | .mark _ _ => true)) others) ∧
          (c.state ≠ .queued ∨ ¬ PrintWaits s c.id →
            (16 ≤ s.pmc.work.length → ChangesNothing .eraseStep s) ∧
            (s.pmc.work.length < 16 → changed
              (s.pmc.work ++ [{
                body := .lift c.id c.start c.petal
                  (min 15 (classEnergy s.settings c.hammerClass + s.settings.liftBoost)) c.passes
                started := false, struck := 0, fed := 0 }])
              (s.lst.cells.map (fun d => if d.id = c.id then { d with state := .liftPending } else d)))))))

/-! ### The mechanism: taking up, motion, the hammer (R60 to R68, R81, R82) -/

/-- MOVING is entered toward a start and a petal (R64, R66): a travel of 0 steps and a seek of 0 petals from a trusted count
have ended, and with both ended the settle of 4 ms runs. The PMC given is the one that enters. -/
def EnteredMoving (st pt : Nat) (p : Pmc) (s t : State) : Prop :=
  t.pmc = { p with
    state := .moving, motors := .on, supply := .down, homing := none, slipHoming := false, settled := false
    carriageArrived := decide (p.carriage = some st), wheelArrived := p.wheelTrusted && decide (p.wheel = some pt) } ∧
  t.tmb = { s.tmb with settle :=
    if p.carriage = some st ∧ p.wheelTrusted = true ∧ p.wheel = some pt then ticksOf s 4 else none }

/-- A LIFT at the front has been abandoned (R63, R99): off the list, its cell PRINTED again, LIFT_FAILED posted, and an
ERASE walk in progress over. The PMC given is the one that abandons it. -/
def LiftAbandoned (o : Operation) (os : List Operation) (id st : Nat) (p : Pmc) (s t : State) : Prop :=
  t.lst.cells = s.lst.cells.map (fun c => if c.id = id then { c with state := .printed } else c) ∧
  t.ntw = { s.ntw with holding := s.ntw.holding ++ [
    { kind := .liftFailed, ragged := false, detail := BitVec.ofNat 8 o.struck, origin := cellOrigin s id
      tag := s.lst.platenTag, position := half st }] } ∧
  t.pmc.work = os ∧ t.pmc.strikes = p.strikes ∧ t.pmc.lifts = p.lifts ∧
  t.tmb = { s.tmb with rest := if os = [] then freshRest s else s.tmb.rest } ∧
  ((∀ w, s.lst.conv ≠ .erasing w) → t.lst = { s.lst with cells := t.lst.cells } ∧ t.taq = s.taq) ∧
  (∀ w a rest, s.lst.conv = .erasing w → s.taq = a :: rest → a.kind = .erase →
    t.lst = { s.lst with cells := t.lst.cells, conv := .idle, holdFlag := false } ∧ t.taq = rest)

/-- OPERATION_TAKE_UP (R60, R62, R63, R79 to R81, R99): in READY with no stall, by the front operation's kind. The sensors are
operands (notes/assumptions/9.md); that a walk in progress has its ERASE at the head is the invariant of CellIdentitiesKept. -/
def Obligations.OperationTakeUpByKind : Prop :=
  ∀ (s : State) (r : Sensors) (o : Operation) (os : List Operation), Powered s → WalkAtHead s → s.pmc.state = .ready →
    s.pmc.work = o :: os →
    let started := { o with started := true } :: os
    let p := { s.pmc with sensors := r, retry := 0 }
    (¬ NoStall s → ChangesNothing (.operationTakeUp r) s) ∧
    (NoStall s → quietOn s = true → Completes (.operationTakeUp r) s (fun t =>
      t.pmc = { s.pmc with state := .held } ∧ t.hpa = { s.hpa with event := s.hpa.event ||| 0x10 } ∧
      OnlyChanges [.hpa, .pmc] s t)) ∧
    (NoStall s → quietOn s = false →
      (∀ id st pt e, o.body = .print id st pt e →
        (r.ribbon = true → Completes (.operationTakeUp r) s (fun t =>
          EnteredMoving st pt { p with work := started } s t ∧ OnlyChanges [.pmc, .tmb] s t)) ∧
        (r.ribbon = false → Completes (.operationTakeUp r) s (fun t =>
          t.pmc = { p with state := .held, ribbonHold := true } ∧
          t.hpa = { s.hpa with event := s.hpa.event ||| 0x10 } ∧
          t.ntw = { s.ntw with holding := s.ntw.holding ++ [
            { kind := .ribbonEnd, ragged := false, detail := 0, origin := cellOrigin s id, tag := s.lst.platenTag
              position := half st }] } ∧
          OnlyChanges [.hpa, .pmc, .ntw] s t))) ∧
      (∀ id st pt e n, o.body = .lift id st pt e n →
        (r.tape = true → Completes (.operationTakeUp r) s (fun t =>
          EnteredMoving st pt { p with work := started } s t ∧ OnlyChanges [.pmc, .tmb] s t)) ∧
        (r.tape = false → Completes (.operationTakeUp r) s (fun t =>
          LiftAbandoned o os id st p s t ∧ t.pmc = { p with work := os } ∧
          OnlyChanges [.taq, .lst, .pmc, .ntw, .tmb] s t))) ∧
      (∀ n, o.body = .feed n → Completes (.operationTakeUp r) s (fun t =>
        t.pmc = { p with state := .feeding, work := started } ∧ OnlyChanges [.pmc] s t)) ∧
      (∀ ms, o.body = .pause ms → Completes (.operationTakeUp r) s (fun t =>
        t.pmc = { p with state := .pausing, work := started, pauseFrozen := false } ∧
        t.tmb = { s.tmb with pause := ticksOf s ms } ∧ OnlyChanges [.pmc, .tmb] s t)) ∧
      (∀ tag origin, o.body = .mark tag origin → Completes (.operationTakeUp r) s (fun t =>
        t.pmc = { p with work := os } ∧ t.tmb = { s.tmb with rest := if os = [] then freshRest s else s.tmb.rest } ∧
        t.ntw = { s.ntw with holding := s.ntw.holding ++ [
          { kind := .markReached, ragged := false, detail := 0, origin := origin, tag := s.pmc.platen, position := tag }] } ∧
        OnlyChanges [.pmc, .ntw, .tmb] s t)))

/-- Where the carriage stops in a travel from one step to another, for a reading of where it stands (the model's choice that
a reading beyond the travel counts as its nearer end, notes/assumptions/10.md). -/
def stopBetween (a b x : Nat) : Nat := if x < min a b then min a b else if max a b < x then max a b else x

/-- FAULT has been entered (R70, R83): motion stopped, the reason, the FAULT event bit, the notice and the tone; the Work
List as it was, and the positions no longer trusted. -/
def EnteredFault (r : FaultReason) (detail : Byte) (position : Half) (s t : State) : Prop :=
  t.pmc = { s.pmc with
    state := .fault, faultReason := r, motors := .stopped, supply := .down, homing := none, slipHoming := false
    parked := none, parkMoving := false, carriage := none, wheel := t.pmc.wheel, wheelTrusted := false
    carriageArrived := false, wheelArrived := false, settled := false, pauseFrozen := true, retry := t.pmc.retry } ∧
  t.hpa = { s.hpa with event := s.hpa.event ||| 0x04 } ∧
  t.ntw = { s.ntw with holding := s.ntw.holding ++ [
    { kind := .fault, ragged := false, detail := detail, origin := faultOrigin s, tag := s.pmc.platen
      position := position }] } ∧
  t.dsp.tone = some { pattern := .fault, interval := 0 } ∧ t.dsp.message = s.dsp.message ∧ DspKept s t ∧
  t.tmb = { s.tmb with settle := none, tone := ticksOf s 300 } ∧ OnlyChanges [.hpa, .pmc, .dsp, .ntw, .tmb] s t

/-- STRIKING is entered with the ribbon or the tape lifted (R66, R67). -/
def struckUp (o : Operation) (p : Pmc) : Pmc :=
  { p with
    state := .striking
    supply := match o.body with
      | .lift _ _ _ _ _ => .tapeUp
      | .print _ _ _ _ | .feed _ | .pause _ | .mark _ _ => .ribbonUp }

/-- CARRIAGE_ARRIVAL, WHEEL_SEEK_ARRIVAL, WHEEL_SLIP, SETTLE_EXPIRY and STRIKE_SPACING_EXPIRY in MOVING (R64 to R67, R70). A
timer is over when its ticks are counted down (R155, notes/assumptions/4.md), and before that its expiry changes nothing. -/
def Obligations.MotionLeadsToStriking : Prop :=
  ∀ (s : State) (o : Operation) (os : List Operation) (st pt : Nat), Powered s → s.pmc.state = .moving →
    s.pmc.work = o :: os → o.body.goal? = some (st, pt) →
    (s.pmc.carriageArrived = false → Completes .carriageArrival s (fun t =>
      t.pmc = { s.pmc with carriage := some st, carriageArrived := true } ∧
      t.tmb = { s.tmb with settle := if s.pmc.wheelArrived then ticksOf s 4 else s.tmb.settle } ∧
      OnlyChanges [.pmc, .tmb] s t)) ∧
    (s.pmc.wheelArrived = false → s.pmc.slipHoming = false → s.pmc.wheelTrusted = true →
      Completes .wheelSeekArrival s (fun t =>
        t.pmc = { s.pmc with wheel := some pt, wheelArrived := true } ∧
        t.tmb = { s.tmb with settle := if s.pmc.carriageArrived then ticksOf s 4 else s.tmb.settle } ∧
        OnlyChanges [.pmc, .tmb] s t) ∧
      ∀ w n at_, s.pmc.wheel = some w → n < 96 →
        let d := (pt + 96 - w % 96) % 96
        let onWay := if d ≤ 48 then 1 ≤ (n + 96 - w % 96) % 96 ∧ (n + 96 - w % 96) % 96 ≤ d
          else 1 ≤ (w + 96 - n) % 96 ∧ (w + 96 - n) % 96 ≤ 96 - d
        (¬ onWay → ChangesNothing (.wheelSlip n at_) s) ∧
        (onWay → s.pmc.retry < 3 → Completes (.wheelSlip n at_) s (fun t =>
          t.pmc = { s.pmc with
            wheel := some n, wheelTrusted := false, retry := s.pmc.retry + 1, slipHoming := true } ∧
          OnlyChanges [.pmc] s t)) ∧
        (∀ c, onWay → 3 ≤ s.pmc.retry → s.pmc.carriage = some c → Completes (.wheelSlip n at_) s
          (EnteredFault .wheelLost 1
            (half (if s.pmc.carriageArrived then c else stopBetween c st at_)) s))) ∧
    (s.tmb.settle ≠ some 0 → ChangesNothing .settleExpiry s) ∧ (s.tmb.spacing ≠ some 0 → ChangesNothing .strikeSpacingExpiry s) ∧
    (s.tmb.settle = some 0 →
      Completes .settleExpiry s (fun t => t.tmb = { s.tmb with settle := none } ∧ OnlyChanges [.pmc, .tmb] s t ∧
        (s.pmc.lastFire = none ∨ s.tmb.spacing = none → t.pmc = struckUp o { s.pmc with settled := true }) ∧
        (s.pmc.lastFire ≠ none → s.tmb.spacing ≠ none → t.pmc = { s.pmc with settled := true }))) ∧
    (s.tmb.spacing = some 0 →
      Completes .strikeSpacingExpiry s (fun t => t.tmb = { s.tmb with spacing := none } ∧ OnlyChanges [.pmc, .tmb] s t ∧
        t.pmc = if s.pmc.settled then struckUp o s.pmc else s.pmc))

/-- The steps of ribbon a PRINT's end advances (R68): its cell's advance. -/
def ribbonOf (s : State) (id : Nat) : Nat :=
  match s.lst.cells.find? (fun c => decide (c.id = id)) with
  | some c => c.advance
  | none => 0

/-- HAMMER_FIRE and RECOVERING_END (R13, R66 to R68, R82): a fire only at the petal of a trusted wheel with the spacing over,
one pass counted, 30 ms to the next; then the completion, its report and its counts, and READY or HELD. -/
def Obligations.HammerStrikesAndCompletes : Prop :=
  ∀ (s : State) (o : Operation) (os : List Operation) (st pt : Nat), Powered s → s.pmc.work = o :: os →
    o.body.goal? = some (st, pt) →
    (s.pmc.state = .striking → o.struck < o.body.passCount → s.pmc.wheel = some pt → s.pmc.wheelTrusted = true →
      s.pmc.lastFire = none ∨ s.tmb.spacing = none → Completes .hammerFire s (fun t =>
        t.pmc = { s.pmc with
          work := { o with struck := o.struck + 1 } :: os
          lastFire := some { tick := s.tmb.ticks, onTick := s.tmb.onTick, energy := o.body.energy }
          state := if o.struck + 1 = o.body.passCount then .recovering else .striking } ∧
        t.tmb = { s.tmb with spacing := ticksOf s 30 } ∧ OnlyChanges [.pmc, .tmb] s t)) ∧
    (s.pmc.state ≠ .striking ∨ o.body.passCount ≤ o.struck ∨ s.pmc.wheel ≠ some pt ∨ s.pmc.wheelTrusted = false ∨
      (s.pmc.lastFire ≠ none ∧ s.tmb.spacing ≠ none) → ChangesNothing .hammerFire s) ∧
    (s.pmc.state = .recovering → Completes .recoveringEnd s (fun t =>
      t.tmb = { s.tmb with rest := if os = [] then freshRest s else s.tmb.rest } ∧
      t.lst = { s.lst with cells := t.lst.cells } ∧ OnlyChanges [.hpa, .lst, .pmc, .tmb] s t ∧
      (∀ id e, o.body = .print id st pt e →
        t.lst.cells = s.lst.cells.map (fun c =>
          if c.id = id ∧ c.state = .queued then { c with state := .printed } else c) ∧
        CameToReady { s.pmc with
          work := os, strikes := min 4294967295 (s.pmc.strikes + o.struck)
          ribbonSteps := s.pmc.ribbonSteps + ribbonOf s id } s t) ∧
      (∀ id e n, o.body = .lift id st pt e n →
        t.lst.cells = s.lst.cells.filter (fun c => decide (c.id ≠ id)) ∧
        CameToReady { s.pmc with
          work := os, strikes := min 4294967295 (s.pmc.strikes + o.struck), lifts := min 65535 (s.pmc.lifts + 1) } s t)))

/-! ### Homings and FAULT (R65, R69 to R71, R74, R159 to R161) -/

/-- What follows a homing that resumes the front operation (R71, R74): a started PRINT or LIFT from MOVING, the LIFT after its
tape test, a FEED, a PAUSE for the time left, and READY or HELD with nothing to resume. The state given is the one that
resumes, with its PMC and its HOMED report already made. -/
def Resumed (u t : State) : Prop :=
  (∀ o os id st pt e, u.pmc.work = o :: os → o.started = true → o.body = .print id st pt e →
    EnteredMoving st pt u.pmc u t ∧ OnlyChanges [.pmc, .tmb] u t) ∧
  (∀ o os id st pt e n, u.pmc.work = o :: os → o.started = true → o.body = .lift id st pt e n →
    (u.pmc.sensors.tape = true → EnteredMoving st pt u.pmc u t ∧ OnlyChanges [.pmc, .tmb] u t) ∧
    (u.pmc.sensors.tape = false → LiftAbandoned o os id st u.pmc u t ∧ CameToReady { u.pmc with work := os } u t ∧
      OnlyChanges [.hpa, .taq, .lst, .pmc, .ntw, .tmb] u t)) ∧
  (∀ o os n, u.pmc.work = o :: os → o.started = true → o.body = .feed n →
    t.pmc = { u.pmc with state := .feeding, motors := .on } ∧ OnlyChanges [.pmc] u t) ∧
  (∀ o os ms, u.pmc.work = o :: os → o.started = true → o.body = .pause ms →
    t.pmc = { u.pmc with state := .pausing, motors := .on, pauseFrozen := false } ∧ OnlyChanges [.pmc] u t) ∧
  ((∀ o os, u.pmc.work = o :: os → o.started = false) → CameToReady u.pmc u t ∧ OnlyChanges [.hpa, .pmc] u t)

/-- Homings that end (R65, R69, R71, R74, R78, R159, R160) and homings that fail (R69, R70). The sensors are operands
(notes/assumptions/9.md), and so is where a stopped carriage stands (notes/assumptions/10.md); that a walk in progress has its
ERASE at the head is the invariant of CellIdentitiesKept. -/
def Obligations.HomingsEndOrFault : Prop :=
  ∀ (s : State) (r : Sensors) (at_ : Nat), Powered s → WalkAtHead s →
    (∀ o os st pt, s.pmc.state = .moving → s.pmc.slipHoming = true → s.pmc.work = o :: os → o.body.goal? = some (st, pt) →
      Completes (.wheelIndexFound r) s (fun t =>
        t.pmc = { s.pmc with
          wheel := some 0, wheelTrusted := true, slipHoming := false, wheelArrived := decide (pt = 0) } ∧
        t.tmb = { s.tmb with settle := if s.pmc.carriageArrived = true ∧ pt = 0 then ticksOf s 4 else s.tmb.settle } ∧
        OnlyChanges [.pmc, .tmb] s t) ∧
      ∀ c, s.pmc.carriage = some c → Completes (.wheelRehomeFail at_) s (EnteredFault .wheelLost 1
        (half (if s.pmc.carriageArrived then c else stopBetween c st at_)) s)) ∧
    (∀ k, s.pmc.state = .homing → s.pmc.homing = some { kind := k, part := .wheel } →
      let p := { s.pmc with sensors := r, wheel := some 0, wheelTrusted := true, homing := none }
      (k = .first → Completes (.wheelIndexFound r) s (fun t =>
        t.pmc = { p with homing := some { kind := .first, part := .toMargin s.esc.lm } } ∧ OnlyChanges [.pmc] s t)) ∧
      (k = .wake → Completes (.wheelIndexFound r) s (fun t => CameToReady p s t ∧ OnlyChanges [.hpa, .pmc] s t)) ∧
      (k = .rehome → Completes (.wheelIndexFound r) s (Resumed
        { s with
          pmc := p, hpa := { s.hpa with event := s.hpa.event ||| 0x20 }
          ntw := { s.ntw with holding := s.ntw.holding ++ [
            { kind := .homed, ragged := false, detail := 1, origin := 0, tag := s.pmc.platen
              position := half (s.pmc.carriage.getD 0) }] } })) ∧
      (k = .close → r.ribbon = true →
        Completes (.wheelIndexFound r) s (Resumed { s with pmc := { p with ribbonHold := false } })) ∧
      (k = .close → r.ribbon = false → Completes (.wheelIndexFound r) s (fun t =>
        t.pmc = { p with ribbonHold := true, state := .held } ∧ t.hpa = { s.hpa with event := s.hpa.event ||| 0x10 } ∧
        OnlyChanges [.hpa, .pmc] s t)) ∧
      Completes (.wheelRehomeFail at_) s (fun t => EnteredFault .wheelLost 1
        (match s.pmc.carriage with
         | some c => half c
         | none => 0xFFFF) s t)) ∧
    (∀ k, s.pmc.state = .homing → s.pmc.homing = some { kind := k, part := .carriage } →
      Completes .carriageHomeFound s (fun t =>
        t.pmc = { s.pmc with carriage := some 0, homing := some { kind := k, part := .wheel } } ∧ OnlyChanges [.pmc] s t) ∧
      Completes .carriageRehomeFail s (EnteredFault .carriageHome 2 0xFFFF s)) ∧
    (∀ k lm, s.pmc.state = .homing → s.pmc.homing = some { kind := k, part := .toMargin lm } →
      Completes .firstHomingEnd s (fun t =>
        t.pmc = { s.pmc with
          state := if holdReason s then .held else .ready, everReady := true, motors := .on, supply := .down
          homing := none, carriage := some lm } ∧
        t.hpa = { s.hpa with event := if holdReason s then s.hpa.event ||| 0x20 ||| 0x10 else s.hpa.event ||| 0x20 } ∧
        t.ntw = { s.ntw with holding := s.ntw.holding ++ [
          { kind := .homed, ragged := false, detail := 0, origin := 0, tag := s.pmc.platen, position := half lm }] } ∧
        OnlyChanges [.hpa, .pmc, .ntw] s t))

/-! ### The cover (R72 to R74) -/

/-- PMC as PARKED is entered with its parked work (R73). The PMC given is the one that parks. That the motors are off where an
interrupted homing leaves no park move, and the carriage motor on wherever else, is the model's choice (notes/assumptions/33.md),
and so is the wheel count that a seek stopped midway leaves (notes/assumptions/41.md). -/
def parkedPmc (w : ParkedWork) (moves : Bool) (p : Pmc) : Pmc :=
  { p with
    state := .parked, parked := some w, parkMoving := moves
    motors := match w with
      | .homing _ => .off
      | .nothing | .operation => .carriageOnly
    supply := .down, homing := none
    slipHoming := false, carriageArrived := false, wheelArrived := false, settled := false, wheelTrusted := false }

/-- PARKED is entered and nothing else but the settle timer changes (R73). -/
def Parked (w : ParkedWork) (moves : Bool) (p : Pmc) (s t : State) : Prop :=
  t.pmc = parkedPmc w moves p ∧ t.tmb = { s.tmb with settle := none }

/-- Some operation in flight stands at the front (R60, R73). -/
def FrontInFlight (s : State) : Prop := ∃ o os, s.pmc.work = o :: os ∧ o.started = true

/-- Where a homing that is interrupted leaves the carriage (R73, R161): in a part that moves it, where it stands by the reading;
a position that is not known stays so (notes/assumptions/10.md). -/
def homingStop (h : Homing) (carriage : Option Nat) (x : Nat) : Option Nat :=
  match carriage, h.part with
  | some c, .carriage => some (stopBetween c 0 x)
  | some c, .toMargin t => some (stopBetween c t x)
  | c, _ => c

/-- COVER_SAMPLE and PARK_MOVE_END (R72 to R74): a change is taken at two like samples that differ from the debounced state
and sets COVER; opening parks by the mechanism's state, closing in PARKED begins the homing. Where a stopped carriage or platen
stands is an operand (notes/assumptions/10.md); that a sample sent between the 8 ms marks counts as one is the model's choice
(notes/assumptions/38.md). -/
def Obligations.CoverParksAndCloses : Prop :=
  ∀ (s : State) (isOpen : Bool) (at_ fed : Nat), Powered s →
    let p := { s.pmc with lastSample := some isOpen, coverOpen := isOpen }
    let goal := (1680 : Nat)
    let moves := decide (s.pmc.carriage ≠ some goal)
    let i := Instr.coverSample isOpen at_ fed
    let covered := fun (bs : List Block) (holds : State → Prop) => Completes i s (fun t =>
      t.hpa = { s.hpa with event := s.hpa.event ||| 0x08 } ∧ OnlyChanges (.hpa :: .pmc :: bs) s t ∧ holds t)
    (s.pmc.lastSample ≠ some isOpen ∨ isOpen = s.pmc.coverOpen → Completes i s (fun t =>
      t.pmc = { s.pmc with lastSample := some isOpen } ∧ OnlyChanges [.pmc] s t)) ∧
    (s.pmc.lastSample = some isOpen → isOpen = true → s.pmc.coverOpen = false →
      (s.pmc.state = .unhomed ∨ s.pmc.state = .fault ∨ s.pmc.state = .parked → covered [] (fun t => t.pmc = p)) ∧
      (s.pmc.state = .ready ∨ s.pmc.state = .resting ∨ s.pmc.state = .held →
        (FrontInFlight s → covered [.tmb] (Parked .operation moves p s)) ∧
        (¬ FrontInFlight s → covered [.tmb] (Parked .nothing moves p s))) ∧
      (s.pmc.state = .pausing → covered [.tmb] (Parked .operation moves p s)) ∧
      (∀ o os n, s.pmc.state = .feeding → s.pmc.work = o :: os → o.body = .feed n →
        covered [.tmb] (Parked .operation moves
          { p with work := { o with fed := min n.natAbs (max o.fed fed) } :: os } s)) ∧
      (∀ h, s.pmc.state = .homing → s.pmc.homing = some h → covered [.tmb] (Parked (.homing h.kind) false
        { p with carriage := homingStop h s.pmc.carriage at_ } s)) ∧
      (∀ o os st pt c, s.pmc.state = .moving ∨ s.pmc.state = .striking ∨ s.pmc.state = .recovering →
        s.pmc.work = o :: os → o.body.goal? = some (st, pt) → s.pmc.carriage = some c →
        let c' := if s.pmc.state = .moving ∧ s.pmc.carriageArrived = false then stopBetween c st at_ else c
        (o.struck < o.body.passCount →
          covered [.tmb] (Parked .operation (decide (c' ≠ goal)) { p with carriage := some c' } s)) ∧
        (0 < o.body.passCount → o.body.passCount ≤ o.struck →
          covered [.lst, .tmb] (fun t =>
            t.tmb = { s.tmb with rest := if os = [] then freshRest s else s.tmb.rest, settle := none } ∧
            t.lst = { s.lst with cells := t.lst.cells } ∧
            (∀ id e, o.body = .print id st pt e →
              t.lst.cells = s.lst.cells.map (fun d =>
                if d.id = id ∧ d.state = .queued then { d with state := .printed } else d) ∧
              t.pmc = parkedPmc .nothing (decide (c' ≠ goal)) { p with
                carriage := some c', work := os, strikes := min 4294967295 (s.pmc.strikes + o.struck) }) ∧
            (∀ id e n, o.body = .lift id st pt e n →
              t.lst.cells = s.lst.cells.filter (fun d => decide (d.id ≠ id)) ∧
              t.pmc = parkedPmc .nothing (decide (c' ≠ goal)) { p with
                carriage := some c', work := os, strikes := min 4294967295 (s.pmc.strikes + o.struck)
                lifts := min 65535 (s.pmc.lifts + 1) }))))) ∧
    (s.pmc.lastSample = some isOpen → isOpen = false → s.pmc.coverOpen = true →
      (s.pmc.state ≠ .parked → covered [] (fun t => t.pmc = p)) ∧
      (∀ c, s.pmc.state = .parked → s.pmc.carriage = some c →
        covered [] (fun t => t.pmc = { p with
          state := .homing, motors := .on, supply := .down, parked := none, parkMoving := false, wheelTrusted := false
          carriage := some (if s.pmc.parkMoving then stopBetween c goal at_ else c)
          homing := match s.pmc.parked with
            | some (.homing .rehome) => some { kind := .rehome, part := .carriage }
            | some (.homing .first) => some { kind := .first, part := .carriage }
            | some (.homing .wake) => some { kind := .wake, part := .wheel }
            | some (.homing .close) | some .nothing | some .operation | none => some { kind := .close, part := .wheel } })) ∧
      (∀ k, s.pmc.state = .parked → s.pmc.carriage = none → s.pmc.parked = some (.homing k) →
        covered [] (fun t => t.pmc.state = .homing ∧ t.pmc.carriage = none ∧ t.pmc.work = s.pmc.work))) ∧
    (s.pmc.state = .parked → s.pmc.parkMoving = true → Completes .parkMoveEnd s (fun t =>
      t.pmc = { s.pmc with carriage := some goal, parkMoving := false } ∧ OnlyChanges [.pmc] s t))

/-! ### FEED, PAUSE, rest and idle follow (R77 to R80) -/

/-- FEED_COMPLETE, PAUSE_EXPIRY, MOTOR_REST_EXPIRY, WAKE_FROM_REST and IDLE_FOLLOW. A timer is over when its ticks are counted,
and before that its expiry changes nothing (R155, notes/assumptions/4.md); a pause frozen by a FAULT does not end (R80, DEDUCED,
notes/assumptions/26.md); how far a piece of idle follow goes is an operand (notes/assumptions/10.md); and that any difference of
point and carriage wakes RESTING, whatever moved the point, is the model's choice (notes/assumptions/39.md). -/
def Obligations.FeedPauseRestAndFollow : Prop :=
  ∀ s : State, Powered s →
    (∀ o os n, s.pmc.state = .feeding → s.pmc.work = o :: os → o.body = .feed n → Completes .feedComplete s (fun t =>
      CameToReady { s.pmc with work := os, platen := s.pmc.platen + BitVec.ofInt 16 n } s t ∧
      t.tmb = { s.tmb with rest := if os = [] then freshRest s else s.tmb.rest } ∧ OnlyChanges [.hpa, .pmc, .tmb] s t)) ∧
    (s.tmb.pause ≠ some 0 → ChangesNothing .pauseExpiry s) ∧
    (∀ o os ms, s.pmc.work = o :: os → o.body = .pause ms → o.started = true → s.tmb.pause = some 0 →
      (s.pmc.pauseFrozen = true → ChangesNothing .pauseExpiry s) ∧
      (s.pmc.pauseFrozen = false → Completes .pauseExpiry s (fun t =>
        t.tmb = { s.tmb with pause := none, rest := if os = [] then freshRest s else s.tmb.rest } ∧
        OnlyChanges [.hpa, .pmc, .tmb] s t ∧
        (s.pmc.state = .pausing → CameToReady { s.pmc with work := os } s t) ∧
        (s.pmc.state = .parked → s.pmc.parked = some .operation →
          t.pmc = { s.pmc with work := os, parked := some .nothing } ∧ t.hpa = s.hpa) ∧
        (s.pmc.state = .homing ∨ s.pmc.state = .held → t.pmc = { s.pmc with work := os } ∧ t.hpa = s.hpa)))) ∧
    (∀ n, s.pmc.state = .ready → s.pmc.work = [] → s.pmc.carriage = some s.lst.step → s.settings.restSeconds ≠ 0 →
      s.tmb.rest = some n → 1000 * s.settings.restSeconds < n → Completes .motorRestExpiry s (fun t =>
        t.pmc = { s.pmc with state := .resting, motors := .off, wheelTrusted := false } ∧
        t.tmb = { s.tmb with rest := none } ∧ OnlyChanges [.pmc, .tmb] s t)) ∧
    (s.pmc.state ≠ .ready ∨ s.pmc.work ≠ [] ∨ s.pmc.carriage ≠ some s.lst.step ∨ s.settings.restSeconds = 0 ∨
      (∀ n, s.tmb.rest = some n → n ≤ 1000 * s.settings.restSeconds) → ChangesNothing .motorRestExpiry s) ∧
    (s.pmc.state = .resting → s.pmc.work ≠ [] ∨ s.pmc.carriage ≠ some s.lst.step → Completes .wakeFromRest s (fun t =>
      t.pmc = { s.pmc with
        state := .homing, motors := .on, supply := .down, homing := some { kind := .wake, part := .wheel }, parked := none
        parkMoving := false, wheelTrusted := false } ∧
      OnlyChanges [.pmc] s t)) ∧
    (s.pmc.state = .resting → s.pmc.work = [] → s.pmc.carriage = some s.lst.step → ChangesNothing .wakeFromRest s) ∧
    (∀ steps c, s.pmc.carriage = some c →
      let follows := s.pmc.state = .feeding ∨
        (s.pmc.state = .ready ∧ (s.pmc.work = [] ∨ ¬ NoStall s ∨ quietOn s = true))
      (follows → Completes (.idleFollow steps) s (fun t =>
        t.pmc = { s.pmc with carriage := some (if c ≤ s.lst.step then min s.lst.step (c + steps)
          else max s.lst.step (c - steps)) } ∧ OnlyChanges [.pmc] s t)) ∧
      (¬ follows → ChangesNothing (.idleFollow steps) s))

/-! ### The Spelling Checker (R115 to R121) -/

/-- The access that reads a slot's length, when the search begins with access n (R117): each slot before it took one access for
its length, and one for each of the word's values where that length was the word's. That each byte is an access of its own is
the model's choice (notes/assumptions/43.md). -/
def slotAccess (look : Nat → State) (list : Half) (folds : List Nat) (n : Nat) : Nat → Nat
  | 0 => n
  | i + 1 =>
    let k := slotAccess look list folds n i
    if (ramByte (look k) (list.toNat + 26 * i)).toNat = folds.length ∧ folds.length ≤ 24 then k + 1 + folds.length else k + 1

/-- The word's fold values stand in a slot of the list (R117), whose length is read at access k and whose values one by one
after it. -/
def InSlot (look : Nat → State) (list : Half) (folds : List Nat) (i k : Nat) : Prop :=
  (ramByte (look k) (list.toNat + 26 * i)).toNat = folds.length ∧ folds.length ≤ 24 ∧
    ∀ j c, folds[j]? = some c → (ramByte (look (k + 1 + j)) (list.toNat + 26 * i + 1 + j)).toNat = c

/-- The hash of R116 step 1, from a value on. -/
def hashFrom : Nat → List Nat → Nat
  | h, [] => h
  | h, c :: cs => hashFrom ((h * 31 + c) % 16777216) cs

/-- The bit of a word's probe is 1 in the RAM (R116): hash, weight, step made odd, order brought to 10 to 17, and the bit, counted
from the least significant, of its byte at FilterBase + probe div 8, modulo 32768. -/
def ProbeSet (u : State) (base : Half) (order : Nat) (folds : List Nat) (i : Nat) : Prop :=
  let h := hashFrom 0 folds
  let weight := ((List.range folds.length).map (fun i => folds.getD i 0 * (i + 1))).sum
  let g := (h / 128 ^^^ weight) % 65536
  let odd := if g % 2 = 0 then g + 1 else g
  let k := if order < 10 then 10 else if 17 < order then 17 else order
  let b := (h + i * odd) % 2 ^ k
  (Memory.read u.ram ((base.toNat + b / 8) % 32768)).toNat / 2 ^ (b % 8) % 2 = 1

/-- A word is in the filter (R116): the bits of all three probes, probe i read at access i, are 1. -/
def InFilter (look : Nat → State) (base : Half) (order : Nat) (folds : List Nat) : Prop :=
  ∀ i, i < 3 → ProbeSet (look i) base order folds i

/-- A word is not in the filter and its n-th probe was the last one read, its bit the first that is 0 (R116). -/
def LeavesFilter (look : Nat → State) (base : Half) (order : Nat) (folds : List Nat) (n : Nat) : Prop :=
  ∃ i, i < 3 ∧ n = i + 1 ∧ (∀ j, j < i → ProbeSet (look j) base order folds j) ∧ ¬ ProbeSet (look i) base order folds i

/-- CHECK_BEGIN, VERDICT_DELIVERY, ADD_REQUEST_BEGIN and ADD_REQUEST_END. Each read of a check or a search returns what the RAM
holds at that read, whatever host accesses fall between the reads (R115, R117, R121, R138); that all of them belong to the step
that begins the work is the model's choice, notes/assumptions/27.md. -/
def Obligations.ChecksAndAddRequests : Prop :=
  ∀ s : State, Powered s →
    (∀ w ws base order list, s.spc.queue = w :: ws → s.spc.flight = none → s.spc.requests = [] → NoStall s →
      s.spc.filterBase = some base → s.spc.filterOrder = some order → s.spc.userList = some list →
      TrafficSays s ∧ Completes .checkBegin s (fun t => ∃ v,
        let look := atAccess .spc s
        t.spc = { s.spc with queue := ws, flight := some { word := w, verdict := v, discarded := false } } ∧
        (v = .good ↔ (InFilter look base order.toNat w.folds ∨ ∃ n i, LeavesFilter look base order.toNat w.folds n ∧ i < 64 ∧
          InSlot look list w.folds i (slotAccess look list w.folds n i))) ∧
        OnlyChanges [.spc] (afterTraffic .spc s) t)) ∧
    (s.spc.flight ≠ none ∨ s.spc.requests ≠ [] ∨ ¬ NoStall s → ChangesNothing .checkBegin s) ∧
    (∀ f, s.spc.flight = some f →
      (f.discarded = true → Completes .verdictDelivery s (fun t =>
        t.spc = { s.spc with flight := none } ∧ OnlyChanges [.spc] s t)) ∧
      (f.discarded = false →
        let marked := fun (m : Mark) => s.lst.cells.map (fun c =>
          if c.mark = .pending ∧ c.wordNo = f.word.number then { c with mark := m } else c)
        (f.verdict = .good → Completes .verdictDelivery s (fun t =>
          t.spc = { s.spc with flight := none } ∧ OnlyChanges [.lst, .spc] s t ∧
          t.lst = { s.lst with cells := if f.word.late then s.lst.cells else marked .good })) ∧
        (f.verdict = .miss → Completes .verdictDelivery s (fun t =>
          t.spc = { s.spc with flight := none, lastMiss := some f.word.folds } ∧
          t.lst = { s.lst with cells := if f.word.late then s.lst.cells else marked .miss } ∧
          t.ntw = { s.ntw with holding := s.ntw.holding ++ [
            { kind := .spellMiss, ragged := false
              detail := BitVec.ofNat 8 (f.word.folds.length + if f.word.late then 128 else 0), origin := f.word.origin
              tag := f.word.tag, position := half f.word.start }] } ∧
          t.dsp.tone = toneAfter .miss s ∧ t.dsp.message = s.dsp.message ∧ DspKept s t ∧
          t.tmb = { s.tmb with tone := toneTimerAfter .miss s } ∧
          OnlyChanges [.lst, .spc, .dsp, .ntw, .tmb] s t)))) ∧
    (∀ q qs list, s.spc.requests = q :: qs → s.spc.userList = some list →
      (q.finding = none → s.spc.flight = none → NoStall s → TrafficSays s ∧ Completes .addRequestBegin s (fun t => ∃ found,
        let look := atAccess .spc s
        let at_ := slotAccess look list q.folds 0
        t.spc = { s.spc with requests := { q with finding := some found } :: qs } ∧
        OnlyChanges [.spc] (afterTraffic .spc s) t ∧
        (found = .equalSlot ↔ ∃ i, i < 64 ∧ InSlot look list q.folds i (at_ i)) ∧
        (∀ i, found = .emptySlot i ↔ (¬ ∃ j, j < 64 ∧ InSlot look list q.folds j (at_ j)) ∧ i < 64 ∧
          ramByte (look (at_ i)) (list.toNat + 26 * i) = 0 ∧
          ∀ j, j < i → ramByte (look (at_ j)) (list.toNat + 26 * j) ≠ 0))) ∧
      (q.finding = none → s.spc.flight ≠ none ∨ ¬ NoStall s → ChangesNothing .addRequestBegin s) ∧
      (∀ detail : Byte, (q.finding = some .equalSlot ∧ detail = 6) ∨ (q.finding = some .noSlot ∧ detail = 14) →
        Completes .addRequestEnd s (fun t =>
          t.spc = { s.spc with requests := qs } ∧
          t.ntw = { s.ntw with holding := s.ntw.holding ++ [
            { kind := .refused, ragged := false, detail := detail, origin := q.origin, tag := s.lst.platenTag
              position := q.seq }] } ∧
          OnlyChanges [.spc, .ntw] s t)) ∧
      (∀ i, q.finding = some (.emptySlot i) → MemoryCanonical s → q.folds.length ≤ 24 → Completes .addRequestEnd s (fun t =>
        t.spc = { s.spc with requests := qs } ∧
        StoredAt (list.toNat + 26 * i) (BitVec.ofNat 8 q.folds.length :: q.folds.map (BitVec.ofNat 8) ++
          List.replicate (24 - q.folds.length) 0) s t ∧
        t.lst = { s.lst with cells := s.lst.cells.map (fun c =>
          if c.mark = .miss ∧ (s.lst.cells.filter (fun d => decide (d.mark = .miss ∧ d.wordNo = c.wordNo))).map Cell.fold =
            q.folds then { c with mark := .good } else c) } ∧
        OnlyChanges [.lst, .spc, .ram] s t)))

/-! ### Notices and the mirror (R142, R151 to R153) -/

/-- The number of a notice kind (section 8.5). -/
def kindNumber : NoticeKind → Nat
  | .refused => 1
  | .lineDone => 2
  | .markReached => 3
  | .spellMiss => 4
  | .liftFailed => 5
  | .ribbonEnd => 6
  | .fault => 7
  | .homed => 8
  | .listBad => 9
  | .settingsClamped => 10

/-- The eight bytes of a Notice entry (section 8.5): the kind with RAGGED in bit 7, the detail, and origin, line tag and position,
each least significant byte first. -/
def entryBytes (n : Notice) : List Byte :=
  [kindNumber n.kind + 128 * n.ragged.toNat, n.detail.toNat, n.origin.toNat % 256, n.origin.toNat / 256, n.tag.toNat % 256,
   n.tag.toNat / 256, n.position.toNat % 256, n.position.toNat / 256].map (BitVec.ofNat 8)

/-- The front entry has been written into the ring (R151), or the ring is full and NTW waits (R152), as NoticeTaken reads. -/
def NoticeTried (n : Notice) (ns : List Notice) (base : Half) (s t : State) : Prop :=
  let taken := ramHalf s (anchorBase s + 16)
  let at_ := base.toNat + 8 * (s.ntw.produced.toNat % 32)
  let place := anchorBase s + 14
  (32 ≤ (s.ntw.produced - taken).toNat →
    t.ntw = { s.ntw with lastTaken := some taken, ringWaiting := true, takenTouched := false } ∧ OnlyChanges [.ntw] s t) ∧
  ((s.ntw.produced - taken).toNat < 32 →
    t.ntw = { s.ntw with
      lastTaken := some taken, holding := ns, produced := s.ntw.produced + 1, ringWaiting := false, takenTouched := false } ∧
    t.hpa = { s.hpa with event := s.hpa.event ||| 0x01 } ∧ OnlyChanges [.hpa, .ntw, .ram] s t ∧
    ramHalf t place = s.ntw.produced + 1 ∧
    (∀ j v, (entryBytes n)[j]? = some v → (at_ + j) % 32768 ≠ place → (at_ + j) % 32768 ≠ place + 1 → ramByte t (at_ + j) = v) ∧
    ∀ b, b ≠ place → b ≠ place + 1 → (∀ j, j < 8 → b ≠ (at_ + j) % 32768) →
      Memory.read t.ram b = Memory.read s.ram b)

/-- The bytes 20 to 43 of the mirror (R142, section 8.5), byte by byte, least significant first. -/
def mirrorBytes (s : State) : List Byte :=
  let b := fun n => BitVec.ofNat 8 n
  [b s.lst.step, b (s.lst.step / 256), b s.lst.platenTag.toNat, b (s.lst.platenTag.toNat / 256), b s.spc.unchecked,
   b (s.spc.unchecked / 256), b s.pmc.lifts, b (s.pmc.lifts / 256), b s.pmc.strikes, b (s.pmc.strikes / 256),
   b (s.pmc.strikes / 256 / 256), b (s.pmc.strikes / 256 / 256 / 256), b s.esc.frac, b s.pmc.state.toNat, b s.lst.mode.toNat,
   b s.esc.pitch.toNat, b s.taq.length, b s.pmc.work.length, b s.pmc.faultReason.toNat, b s.klr.state.toNat,
   b (s.pmc.ribbonHold.toNat + 2 * (quietOn s).toNat), b s.pmc.coverOpen.toNat, b s.lst.cells.length, b s.lst.cursor]

/-- The seventeen fields of the mirror (R142, section 8.5), each with its offset in the Anchor Block, its width and its value. -/
def mirrorTable (s : State) : List (Nat × Nat × Nat) :=
  [(20, 2, s.lst.step), (22, 2, s.lst.platenTag.toNat), (24, 2, s.spc.unchecked), (26, 2, s.pmc.lifts), (28, 4, s.pmc.strikes),
   (32, 1, s.esc.frac), (33, 1, s.pmc.state.toNat), (34, 1, s.lst.mode.toNat), (35, 1, s.esc.pitch.toNat),
   (36, 1, s.taq.length), (37, 1, s.pmc.work.length), (38, 1, s.pmc.faultReason.toNat), (39, 1, s.klr.state.toNat),
   (40, 1, s.pmc.ribbonHold.toNat + 2 * (quietOn s).toNat), (41, 1, s.pmc.coverOpen.toNat), (42, 1, s.lst.cells.length),
   (43, 1, s.lst.cursor)]

/-- A field of the mirror differs from the value last written (R142). -/
def FieldDiffers (s : State) (offset width value : Nat) : Prop :=
  ∃ (k : Nat) (last : Option Nat), (mirrorTable s)[k]? = some (offset, width, value) ∧ s.ntw.mirrorLast[k]? = some last ∧ last ≠ some value

/-- A batch (R142): each field that differs is written, least significant byte first, MirrorCount is 2 more, and no other byte
of the RAM changes. -/
def BatchWritten (s t : State) : Prop :=
  (∀ offset width value, FieldDiffers s offset width value → ∀ j, j < width →
    ramByte t (anchorBase s + offset + j) = BitVec.ofNat 8 (value / 256 ^ j)) ∧
  ramByte t (anchorBase s + 13) = s.ntw.mirrorCount + 2 ∧
  (∀ b, b ≠ anchorBase s + 13 →
    (∀ offset width value, FieldDiffers s offset width value → ∀ j, j < width → b ≠ anchorBase s + offset + j) →
    Memory.read t.ram b = Memory.read s.ram b) ∧
  t.ntw = { s.ntw with
    mirrorCount := s.ntw.mirrorCount + 2, mirrorLast := (mirrorTable s).map (fun f => some f.2.2) } ∧
  OnlyChanges [.ntw, .ram] s t

/-- NOTICE_WRITE, NOTICE_TAKEN_REREAD (for which a host write must have touched NoticeTaken, notes/assumptions/21.md), the ring's
part of LIST_POLL, before the reader's in AT_END (R138), and MIRROR_TICK: nothing before the first RUN after a reset; a batch of
the fields that differ, which is one step and raises MirrorCount by 2 (notes/assumptions/20.md), and whose first one after a RUN
writes every field; no batch when none differs. -/
def Obligations.NoticesAndMirrorReachTheRam : Prop :=
  ∀ s : State, Powered s → MemoryCanonical s → s.hpa.portRequests = [] →
    (∀ n ns base, s.ntw.holding = n :: ns → s.ntw.noticeBase = some base →
      (s.klr.ran = true → s.ntw.ringWaiting = false → Completes .noticeWrite s (NoticeTried n ns base s)) ∧
      (s.ntw.ringWaiting = true → s.ntw.takenTouched = true → Completes .noticeTakenReread s (NoticeTried n ns base s)) ∧
      (s.ntw.ringWaiting = true → s.klr.state ≠ .atEnd → Completes .listPoll s (NoticeTried n ns base s)) ∧
      (s.ntw.ringWaiting = true → s.klr.state = .atEnd →
        Completes .listPoll s (fun t => ∃ u, NoticeTried n ns base s u ∧ RereadFinds u t))) ∧
    (s.klr.ran = false ∨ s.ntw.holding = [] ∨ s.ntw.ringWaiting = true → ChangesNothing .noticeWrite s) ∧
    (s.ntw.ringWaiting = false ∨ s.ntw.takenTouched = false → ChangesNothing .noticeTakenReread s) ∧
    (s.klr.ran = false → ChangesNothing .mirrorTick s) ∧
    (s.klr.ran = true → s.ntw.mirrorLast = List.replicate 17 none → Completes .mirrorTick s (fun t =>
      StoredAt (anchorBase s + 20) (mirrorBytes s) { s with ram := (writeByte (anchorBase s + 13) (s.ntw.mirrorCount + 2) s).ram } t ∧
      ramByte t (anchorBase s + 13) = s.ntw.mirrorCount + 2 ∧
      t.ntw = { s.ntw with mirrorCount := s.ntw.mirrorCount + 2, mirrorLast := t.ntw.mirrorLast } ∧
      ChangesNothing .mirrorTick t ∧ OnlyChanges [.ntw, .ram] s t)) ∧
    (s.klr.ran = true → s.ntw.mirrorLast.length = 17 →
      ((∃ offset width value, FieldDiffers s offset width value) → Completes .mirrorTick s (BatchWritten s)) ∧
      ((¬ ∃ offset width value, FieldDiffers s offset width value) → ChangesNothing .mirrorTick s))

/-! ### The display and the tone (R124, R127, R131 to R135) -/

/-- The patterns (R134): the intervals of each in ms, sounding and silent by turns from a sounding one on, and the frequency in Hz
at the output in a sounding interval. -/
def TonesSay : Prop :=
  patternSeries .bell = [150] ∧ patternSeries .refuse = [60, 40, 60] ∧ patternSeries .miss = [40, 40, 40, 40, 40] ∧
  patternSeries .fault = [300, 200, 300, 200, 300, 200] ∧
  ∀ s : State, (s.dsp.tone = none → toneOutput s = none) ∧
    ∀ p i, s.dsp.tone = some { pattern := p, interval := i } →
      (i % 2 = 1 → toneOutput s = none) ∧
      (i % 2 = 0 → toneOutput s = some (match p with
        | .bell => 2000
        | .refuse => 500
        | .miss => 1000
        | .fault => 250))

/-- The tone patterns (R134); and BLINK_PHASE_CHANGE, DISPLAY_TRANSFER_BEGIN and COMPLETE, MESSAGE_TIMER_EXPIRY and TONE_INTERVAL_EXPIRY. A timer is over
when its ticks are counted down, and before that its expiry changes nothing; an interval that begins on the
very tick on which the one before it ran out runs as many ticks as its ms (R155, notes/assumptions/4.md). -/
def Obligations.DisplayLinkMessageAndTone : Prop :=
  TonesSay ∧
  ∀ s : State, Powered s → ImageCurrent s → DisplayShaped s → WindowFollows s →
    Completes .blinkPhaseChange s (fun t =>
      t.dsp = { s.dsp with blinkOn := !s.dsp.blinkOn, image := imageOf t } ∧ OnlyChanges [.dsp] s t) ∧
    (s.dsp.transfer ≠ none → ChangesNothing .displayTransferBegin s) ∧
    (s.dsp.transfer = none → s.dsp.linkMode = .scan → ∀ c, s.dsp.image[s.dsp.linkPtr]? = some c →
      Completes .displayTransferBegin s (fun t =>
        t.dsp = { s.dsp with transfer := some { index := s.dsp.linkPtr, content := c } } ∧ OnlyChanges [.dsp] s t)) ∧
    (s.dsp.transfer = none → s.dsp.linkMode = .diff → ∀ k c, k < 40 →
      (∀ j, j < k → s.dsp.sent[(s.dsp.linkPtr + j) % 40]? = (s.dsp.image[(s.dsp.linkPtr + j) % 40]?).map some) →
      s.dsp.image[(s.dsp.linkPtr + k) % 40]? = some c → s.dsp.sent[(s.dsp.linkPtr + k) % 40]? ≠ some (some c) →
      Completes .displayTransferBegin s (fun t =>
        t.dsp = { s.dsp with transfer := some { index := (s.dsp.linkPtr + k) % 40, content := c } } ∧
        OnlyChanges [.dsp] s t)) ∧
    (s.dsp.transfer = none → s.dsp.linkMode = .diff → s.dsp.sent = s.dsp.image.map some →
      Completes .displayTransferBegin s (fun t => t.dsp = s.dsp ∧ OnlyChanges [] s t)) ∧
    (∀ x, s.dsp.transfer = some x → Completes .displayTransferComplete s (fun t =>
      t.dsp = { s.dsp with
        sent := s.dsp.sent.set x.index (some x.content), linkPtr := (x.index + 1) % 40, transfer := none } ∧
      OnlyChanges [.dsp] s t)) ∧
    (s.tmb.message ≠ some 0 → ChangesNothing .messageTimerExpiry s) ∧
    (s.tmb.tone ≠ some 0 → ChangesNothing .toneIntervalExpiry s) ∧
    (∀ codes, s.dsp.message = some codes → s.tmb.message = some 0 → Completes .messageTimerExpiry s (fun t =>
      t.dsp = { s.dsp with message := none, image := imageOf t } ∧ t.tmb = { s.tmb with message := none } ∧
      OnlyChanges [.dsp, .tmb] s t)) ∧
    (∀ x, s.dsp.tone = some x → s.tmb.tone = some 0 → Completes .toneIntervalExpiry s (fun t =>
      OnlyChanges [.dsp, .tmb] s t ∧
      (∀ ms, (patternSeries x.pattern)[x.interval + 1]? = some ms →
        t.dsp = { s.dsp with tone := some { x with interval := x.interval + 1 } } ∧ t.tmb = { s.tmb with tone := ticksOf s ms }) ∧
      ((patternSeries x.pattern).length ≤ x.interval + 1 →
        t.dsp = { s.dsp with tone := none } ∧ t.tmb = { s.tmb with tone := none } ∧ toneOutput t = none)))
end

