-- ==== Sys2Proof/Laws/State.lean ====
section
/-! SUPPORT. One lemma per field per setter of State, true by rfl, so that no later proof unfolds a record update. -/
namespace Sys2Proof.Machine

@[simp] theorem withHpa_hpa (s : State) (x : Hpa) : (s.withHpa x).hpa = x := rfl
@[simp] theorem withHpa_klr (s : State) (x : Hpa) : (s.withHpa x).klr = s.klr := rfl
@[simp] theorem withHpa_taq (s : State) (x : Hpa) : (s.withHpa x).taq = s.taq := rfl
@[simp] theorem withHpa_lst (s : State) (x : Hpa) : (s.withHpa x).lst = s.lst := rfl
@[simp] theorem withHpa_esc (s : State) (x : Hpa) : (s.withHpa x).esc = s.esc := rfl
@[simp] theorem withHpa_settings (s : State) (x : Hpa) : (s.withHpa x).settings = s.settings := rfl
@[simp] theorem withHpa_pmc (s : State) (x : Hpa) : (s.withHpa x).pmc = s.pmc := rfl
@[simp] theorem withHpa_cmm (s : State) (x : Hpa) : (s.withHpa x).cmm = s.cmm := rfl
@[simp] theorem withHpa_spc (s : State) (x : Hpa) : (s.withHpa x).spc = s.spc := rfl
@[simp] theorem withHpa_dsp (s : State) (x : Hpa) : (s.withHpa x).dsp = s.dsp := rfl
@[simp] theorem withHpa_ntw (s : State) (x : Hpa) : (s.withHpa x).ntw = s.ntw := rfl
@[simp] theorem withHpa_tmb (s : State) (x : Hpa) : (s.withHpa x).tmb = s.tmb := rfl
@[simp] theorem withHpa_ram (s : State) (x : Hpa) : (s.withHpa x).ram = s.ram := rfl
@[simp] theorem withHpa_pending (s : State) (x : Hpa) : (s.withHpa x).pending = s.pending := rfl
@[simp] theorem withKlr_hpa (s : State) (x : Klr) : (s.withKlr x).hpa = s.hpa := rfl
@[simp] theorem withKlr_klr (s : State) (x : Klr) : (s.withKlr x).klr = x := rfl
@[simp] theorem withKlr_taq (s : State) (x : Klr) : (s.withKlr x).taq = s.taq := rfl
@[simp] theorem withKlr_lst (s : State) (x : Klr) : (s.withKlr x).lst = s.lst := rfl
@[simp] theorem withKlr_esc (s : State) (x : Klr) : (s.withKlr x).esc = s.esc := rfl
@[simp] theorem withKlr_settings (s : State) (x : Klr) : (s.withKlr x).settings = s.settings := rfl
@[simp] theorem withKlr_pmc (s : State) (x : Klr) : (s.withKlr x).pmc = s.pmc := rfl
@[simp] theorem withKlr_cmm (s : State) (x : Klr) : (s.withKlr x).cmm = s.cmm := rfl
@[simp] theorem withKlr_spc (s : State) (x : Klr) : (s.withKlr x).spc = s.spc := rfl
@[simp] theorem withKlr_dsp (s : State) (x : Klr) : (s.withKlr x).dsp = s.dsp := rfl
@[simp] theorem withKlr_ntw (s : State) (x : Klr) : (s.withKlr x).ntw = s.ntw := rfl
@[simp] theorem withKlr_tmb (s : State) (x : Klr) : (s.withKlr x).tmb = s.tmb := rfl
@[simp] theorem withKlr_ram (s : State) (x : Klr) : (s.withKlr x).ram = s.ram := rfl
@[simp] theorem withKlr_pending (s : State) (x : Klr) : (s.withKlr x).pending = s.pending := rfl
@[simp] theorem withTaq_hpa (s : State) (x : List Action) : (s.withTaq x).hpa = s.hpa := rfl
@[simp] theorem withTaq_klr (s : State) (x : List Action) : (s.withTaq x).klr = s.klr := rfl
@[simp] theorem withTaq_taq (s : State) (x : List Action) : (s.withTaq x).taq = x := rfl
@[simp] theorem withTaq_lst (s : State) (x : List Action) : (s.withTaq x).lst = s.lst := rfl
@[simp] theorem withTaq_esc (s : State) (x : List Action) : (s.withTaq x).esc = s.esc := rfl
@[simp] theorem withTaq_settings (s : State) (x : List Action) : (s.withTaq x).settings = s.settings := rfl
@[simp] theorem withTaq_pmc (s : State) (x : List Action) : (s.withTaq x).pmc = s.pmc := rfl
@[simp] theorem withTaq_cmm (s : State) (x : List Action) : (s.withTaq x).cmm = s.cmm := rfl
@[simp] theorem withTaq_spc (s : State) (x : List Action) : (s.withTaq x).spc = s.spc := rfl
@[simp] theorem withTaq_dsp (s : State) (x : List Action) : (s.withTaq x).dsp = s.dsp := rfl
@[simp] theorem withTaq_ntw (s : State) (x : List Action) : (s.withTaq x).ntw = s.ntw := rfl
@[simp] theorem withTaq_tmb (s : State) (x : List Action) : (s.withTaq x).tmb = s.tmb := rfl
@[simp] theorem withTaq_ram (s : State) (x : List Action) : (s.withTaq x).ram = s.ram := rfl
@[simp] theorem withTaq_pending (s : State) (x : List Action) : (s.withTaq x).pending = s.pending := rfl
@[simp] theorem withLst_hpa (s : State) (x : Lst) : (s.withLst x).hpa = s.hpa := rfl
@[simp] theorem withLst_klr (s : State) (x : Lst) : (s.withLst x).klr = s.klr := rfl
@[simp] theorem withLst_taq (s : State) (x : Lst) : (s.withLst x).taq = s.taq := rfl
@[simp] theorem withLst_lst (s : State) (x : Lst) : (s.withLst x).lst = x := rfl
@[simp] theorem withLst_esc (s : State) (x : Lst) : (s.withLst x).esc = s.esc := rfl
@[simp] theorem withLst_settings (s : State) (x : Lst) : (s.withLst x).settings = s.settings := rfl
@[simp] theorem withLst_pmc (s : State) (x : Lst) : (s.withLst x).pmc = s.pmc := rfl
@[simp] theorem withLst_cmm (s : State) (x : Lst) : (s.withLst x).cmm = s.cmm := rfl
@[simp] theorem withLst_spc (s : State) (x : Lst) : (s.withLst x).spc = s.spc := rfl
@[simp] theorem withLst_dsp (s : State) (x : Lst) : (s.withLst x).dsp = s.dsp := rfl
@[simp] theorem withLst_ntw (s : State) (x : Lst) : (s.withLst x).ntw = s.ntw := rfl
@[simp] theorem withLst_tmb (s : State) (x : Lst) : (s.withLst x).tmb = s.tmb := rfl
@[simp] theorem withLst_ram (s : State) (x : Lst) : (s.withLst x).ram = s.ram := rfl
@[simp] theorem withLst_pending (s : State) (x : Lst) : (s.withLst x).pending = s.pending := rfl
@[simp] theorem withEsc_hpa (s : State) (x : Esc) : (s.withEsc x).hpa = s.hpa := rfl
@[simp] theorem withEsc_klr (s : State) (x : Esc) : (s.withEsc x).klr = s.klr := rfl
@[simp] theorem withEsc_taq (s : State) (x : Esc) : (s.withEsc x).taq = s.taq := rfl
@[simp] theorem withEsc_lst (s : State) (x : Esc) : (s.withEsc x).lst = s.lst := rfl
@[simp] theorem withEsc_esc (s : State) (x : Esc) : (s.withEsc x).esc = x := rfl
@[simp] theorem withEsc_settings (s : State) (x : Esc) : (s.withEsc x).settings = s.settings := rfl
@[simp] theorem withEsc_pmc (s : State) (x : Esc) : (s.withEsc x).pmc = s.pmc := rfl
@[simp] theorem withEsc_cmm (s : State) (x : Esc) : (s.withEsc x).cmm = s.cmm := rfl
@[simp] theorem withEsc_spc (s : State) (x : Esc) : (s.withEsc x).spc = s.spc := rfl
@[simp] theorem withEsc_dsp (s : State) (x : Esc) : (s.withEsc x).dsp = s.dsp := rfl
@[simp] theorem withEsc_ntw (s : State) (x : Esc) : (s.withEsc x).ntw = s.ntw := rfl
@[simp] theorem withEsc_tmb (s : State) (x : Esc) : (s.withEsc x).tmb = s.tmb := rfl
@[simp] theorem withEsc_ram (s : State) (x : Esc) : (s.withEsc x).ram = s.ram := rfl
@[simp] theorem withEsc_pending (s : State) (x : Esc) : (s.withEsc x).pending = s.pending := rfl
@[simp] theorem withSettings_hpa (s : State) (x : Settings) : (s.withSettings x).hpa = s.hpa := rfl
@[simp] theorem withSettings_klr (s : State) (x : Settings) : (s.withSettings x).klr = s.klr := rfl
@[simp] theorem withSettings_taq (s : State) (x : Settings) : (s.withSettings x).taq = s.taq := rfl
@[simp] theorem withSettings_lst (s : State) (x : Settings) : (s.withSettings x).lst = s.lst := rfl
@[simp] theorem withSettings_esc (s : State) (x : Settings) : (s.withSettings x).esc = s.esc := rfl
@[simp] theorem withSettings_settings (s : State) (x : Settings) : (s.withSettings x).settings = x := rfl
@[simp] theorem withSettings_pmc (s : State) (x : Settings) : (s.withSettings x).pmc = s.pmc := rfl
@[simp] theorem withSettings_cmm (s : State) (x : Settings) : (s.withSettings x).cmm = s.cmm := rfl
@[simp] theorem withSettings_spc (s : State) (x : Settings) : (s.withSettings x).spc = s.spc := rfl
@[simp] theorem withSettings_dsp (s : State) (x : Settings) : (s.withSettings x).dsp = s.dsp := rfl
@[simp] theorem withSettings_ntw (s : State) (x : Settings) : (s.withSettings x).ntw = s.ntw := rfl
@[simp] theorem withSettings_tmb (s : State) (x : Settings) : (s.withSettings x).tmb = s.tmb := rfl
@[simp] theorem withSettings_ram (s : State) (x : Settings) : (s.withSettings x).ram = s.ram := rfl
@[simp] theorem withSettings_pending (s : State) (x : Settings) : (s.withSettings x).pending = s.pending := rfl
@[simp] theorem withPmc_hpa (s : State) (x : Pmc) : (s.withPmc x).hpa = s.hpa := rfl
@[simp] theorem withPmc_klr (s : State) (x : Pmc) : (s.withPmc x).klr = s.klr := rfl
@[simp] theorem withPmc_taq (s : State) (x : Pmc) : (s.withPmc x).taq = s.taq := rfl
@[simp] theorem withPmc_lst (s : State) (x : Pmc) : (s.withPmc x).lst = s.lst := rfl
@[simp] theorem withPmc_esc (s : State) (x : Pmc) : (s.withPmc x).esc = s.esc := rfl
@[simp] theorem withPmc_settings (s : State) (x : Pmc) : (s.withPmc x).settings = s.settings := rfl
@[simp] theorem withPmc_pmc (s : State) (x : Pmc) : (s.withPmc x).pmc = x := rfl
@[simp] theorem withPmc_cmm (s : State) (x : Pmc) : (s.withPmc x).cmm = s.cmm := rfl
@[simp] theorem withPmc_spc (s : State) (x : Pmc) : (s.withPmc x).spc = s.spc := rfl
@[simp] theorem withPmc_dsp (s : State) (x : Pmc) : (s.withPmc x).dsp = s.dsp := rfl
@[simp] theorem withPmc_ntw (s : State) (x : Pmc) : (s.withPmc x).ntw = s.ntw := rfl
@[simp] theorem withPmc_tmb (s : State) (x : Pmc) : (s.withPmc x).tmb = s.tmb := rfl
@[simp] theorem withPmc_ram (s : State) (x : Pmc) : (s.withPmc x).ram = s.ram := rfl
@[simp] theorem withPmc_pending (s : State) (x : Pmc) : (s.withPmc x).pending = s.pending := rfl
@[simp] theorem withCmm_hpa (s : State) (x : List Entry) : (s.withCmm x).hpa = s.hpa := rfl
@[simp] theorem withCmm_klr (s : State) (x : List Entry) : (s.withCmm x).klr = s.klr := rfl
@[simp] theorem withCmm_taq (s : State) (x : List Entry) : (s.withCmm x).taq = s.taq := rfl
@[simp] theorem withCmm_lst (s : State) (x : List Entry) : (s.withCmm x).lst = s.lst := rfl
@[simp] theorem withCmm_esc (s : State) (x : List Entry) : (s.withCmm x).esc = s.esc := rfl
@[simp] theorem withCmm_settings (s : State) (x : List Entry) : (s.withCmm x).settings = s.settings := rfl
@[simp] theorem withCmm_pmc (s : State) (x : List Entry) : (s.withCmm x).pmc = s.pmc := rfl
@[simp] theorem withCmm_cmm (s : State) (x : List Entry) : (s.withCmm x).cmm = x := rfl
@[simp] theorem withCmm_spc (s : State) (x : List Entry) : (s.withCmm x).spc = s.spc := rfl
@[simp] theorem withCmm_dsp (s : State) (x : List Entry) : (s.withCmm x).dsp = s.dsp := rfl
@[simp] theorem withCmm_ntw (s : State) (x : List Entry) : (s.withCmm x).ntw = s.ntw := rfl
@[simp] theorem withCmm_tmb (s : State) (x : List Entry) : (s.withCmm x).tmb = s.tmb := rfl
@[simp] theorem withCmm_ram (s : State) (x : List Entry) : (s.withCmm x).ram = s.ram := rfl
@[simp] theorem withCmm_pending (s : State) (x : List Entry) : (s.withCmm x).pending = s.pending := rfl
@[simp] theorem withSpc_hpa (s : State) (x : Spc) : (s.withSpc x).hpa = s.hpa := rfl
@[simp] theorem withSpc_klr (s : State) (x : Spc) : (s.withSpc x).klr = s.klr := rfl
@[simp] theorem withSpc_taq (s : State) (x : Spc) : (s.withSpc x).taq = s.taq := rfl
@[simp] theorem withSpc_lst (s : State) (x : Spc) : (s.withSpc x).lst = s.lst := rfl
@[simp] theorem withSpc_esc (s : State) (x : Spc) : (s.withSpc x).esc = s.esc := rfl
@[simp] theorem withSpc_settings (s : State) (x : Spc) : (s.withSpc x).settings = s.settings := rfl
@[simp] theorem withSpc_pmc (s : State) (x : Spc) : (s.withSpc x).pmc = s.pmc := rfl
@[simp] theorem withSpc_cmm (s : State) (x : Spc) : (s.withSpc x).cmm = s.cmm := rfl
@[simp] theorem withSpc_spc (s : State) (x : Spc) : (s.withSpc x).spc = x := rfl
@[simp] theorem withSpc_dsp (s : State) (x : Spc) : (s.withSpc x).dsp = s.dsp := rfl
@[simp] theorem withSpc_ntw (s : State) (x : Spc) : (s.withSpc x).ntw = s.ntw := rfl
@[simp] theorem withSpc_tmb (s : State) (x : Spc) : (s.withSpc x).tmb = s.tmb := rfl
@[simp] theorem withSpc_ram (s : State) (x : Spc) : (s.withSpc x).ram = s.ram := rfl
@[simp] theorem withSpc_pending (s : State) (x : Spc) : (s.withSpc x).pending = s.pending := rfl
@[simp] theorem withDsp_hpa (s : State) (x : Dsp) : (s.withDsp x).hpa = s.hpa := rfl
@[simp] theorem withDsp_klr (s : State) (x : Dsp) : (s.withDsp x).klr = s.klr := rfl
@[simp] theorem withDsp_taq (s : State) (x : Dsp) : (s.withDsp x).taq = s.taq := rfl
@[simp] theorem withDsp_lst (s : State) (x : Dsp) : (s.withDsp x).lst = s.lst := rfl
@[simp] theorem withDsp_esc (s : State) (x : Dsp) : (s.withDsp x).esc = s.esc := rfl
@[simp] theorem withDsp_settings (s : State) (x : Dsp) : (s.withDsp x).settings = s.settings := rfl
@[simp] theorem withDsp_pmc (s : State) (x : Dsp) : (s.withDsp x).pmc = s.pmc := rfl
@[simp] theorem withDsp_cmm (s : State) (x : Dsp) : (s.withDsp x).cmm = s.cmm := rfl
@[simp] theorem withDsp_spc (s : State) (x : Dsp) : (s.withDsp x).spc = s.spc := rfl
@[simp] theorem withDsp_dsp (s : State) (x : Dsp) : (s.withDsp x).dsp = x := rfl
@[simp] theorem withDsp_ntw (s : State) (x : Dsp) : (s.withDsp x).ntw = s.ntw := rfl
@[simp] theorem withDsp_tmb (s : State) (x : Dsp) : (s.withDsp x).tmb = s.tmb := rfl
@[simp] theorem withDsp_ram (s : State) (x : Dsp) : (s.withDsp x).ram = s.ram := rfl
@[simp] theorem withDsp_pending (s : State) (x : Dsp) : (s.withDsp x).pending = s.pending := rfl
@[simp] theorem withNtw_hpa (s : State) (x : Ntw) : (s.withNtw x).hpa = s.hpa := rfl
@[simp] theorem withNtw_klr (s : State) (x : Ntw) : (s.withNtw x).klr = s.klr := rfl
@[simp] theorem withNtw_taq (s : State) (x : Ntw) : (s.withNtw x).taq = s.taq := rfl
@[simp] theorem withNtw_lst (s : State) (x : Ntw) : (s.withNtw x).lst = s.lst := rfl
@[simp] theorem withNtw_esc (s : State) (x : Ntw) : (s.withNtw x).esc = s.esc := rfl
@[simp] theorem withNtw_settings (s : State) (x : Ntw) : (s.withNtw x).settings = s.settings := rfl
@[simp] theorem withNtw_pmc (s : State) (x : Ntw) : (s.withNtw x).pmc = s.pmc := rfl
@[simp] theorem withNtw_cmm (s : State) (x : Ntw) : (s.withNtw x).cmm = s.cmm := rfl
@[simp] theorem withNtw_spc (s : State) (x : Ntw) : (s.withNtw x).spc = s.spc := rfl
@[simp] theorem withNtw_dsp (s : State) (x : Ntw) : (s.withNtw x).dsp = s.dsp := rfl
@[simp] theorem withNtw_ntw (s : State) (x : Ntw) : (s.withNtw x).ntw = x := rfl
@[simp] theorem withNtw_tmb (s : State) (x : Ntw) : (s.withNtw x).tmb = s.tmb := rfl
@[simp] theorem withNtw_ram (s : State) (x : Ntw) : (s.withNtw x).ram = s.ram := rfl
@[simp] theorem withNtw_pending (s : State) (x : Ntw) : (s.withNtw x).pending = s.pending := rfl
@[simp] theorem withTmb_hpa (s : State) (x : Tmb) : (s.withTmb x).hpa = s.hpa := rfl
@[simp] theorem withTmb_klr (s : State) (x : Tmb) : (s.withTmb x).klr = s.klr := rfl
@[simp] theorem withTmb_taq (s : State) (x : Tmb) : (s.withTmb x).taq = s.taq := rfl
@[simp] theorem withTmb_lst (s : State) (x : Tmb) : (s.withTmb x).lst = s.lst := rfl
@[simp] theorem withTmb_esc (s : State) (x : Tmb) : (s.withTmb x).esc = s.esc := rfl
@[simp] theorem withTmb_settings (s : State) (x : Tmb) : (s.withTmb x).settings = s.settings := rfl
@[simp] theorem withTmb_pmc (s : State) (x : Tmb) : (s.withTmb x).pmc = s.pmc := rfl
@[simp] theorem withTmb_cmm (s : State) (x : Tmb) : (s.withTmb x).cmm = s.cmm := rfl
@[simp] theorem withTmb_spc (s : State) (x : Tmb) : (s.withTmb x).spc = s.spc := rfl
@[simp] theorem withTmb_dsp (s : State) (x : Tmb) : (s.withTmb x).dsp = s.dsp := rfl
@[simp] theorem withTmb_ntw (s : State) (x : Tmb) : (s.withTmb x).ntw = s.ntw := rfl
@[simp] theorem withTmb_tmb (s : State) (x : Tmb) : (s.withTmb x).tmb = x := rfl
@[simp] theorem withTmb_ram (s : State) (x : Tmb) : (s.withTmb x).ram = s.ram := rfl
@[simp] theorem withTmb_pending (s : State) (x : Tmb) : (s.withTmb x).pending = s.pending := rfl
@[simp] theorem withRam_hpa (s : State) (x : Memory) : (s.withRam x).hpa = s.hpa := rfl
@[simp] theorem withRam_klr (s : State) (x : Memory) : (s.withRam x).klr = s.klr := rfl
@[simp] theorem withRam_taq (s : State) (x : Memory) : (s.withRam x).taq = s.taq := rfl
@[simp] theorem withRam_lst (s : State) (x : Memory) : (s.withRam x).lst = s.lst := rfl
@[simp] theorem withRam_esc (s : State) (x : Memory) : (s.withRam x).esc = s.esc := rfl
@[simp] theorem withRam_settings (s : State) (x : Memory) : (s.withRam x).settings = s.settings := rfl
@[simp] theorem withRam_pmc (s : State) (x : Memory) : (s.withRam x).pmc = s.pmc := rfl
@[simp] theorem withRam_cmm (s : State) (x : Memory) : (s.withRam x).cmm = s.cmm := rfl
@[simp] theorem withRam_spc (s : State) (x : Memory) : (s.withRam x).spc = s.spc := rfl
@[simp] theorem withRam_dsp (s : State) (x : Memory) : (s.withRam x).dsp = s.dsp := rfl
@[simp] theorem withRam_ntw (s : State) (x : Memory) : (s.withRam x).ntw = s.ntw := rfl
@[simp] theorem withRam_tmb (s : State) (x : Memory) : (s.withRam x).tmb = s.tmb := rfl
@[simp] theorem withRam_ram (s : State) (x : Memory) : (s.withRam x).ram = x := rfl
@[simp] theorem withRam_pending (s : State) (x : Memory) : (s.withRam x).pending = s.pending := rfl
@[simp] theorem withPending_hpa (s : State) (x : List Instr) : (s.withPending x).hpa = s.hpa := rfl
@[simp] theorem withPending_klr (s : State) (x : List Instr) : (s.withPending x).klr = s.klr := rfl
@[simp] theorem withPending_taq (s : State) (x : List Instr) : (s.withPending x).taq = s.taq := rfl
@[simp] theorem withPending_lst (s : State) (x : List Instr) : (s.withPending x).lst = s.lst := rfl
@[simp] theorem withPending_esc (s : State) (x : List Instr) : (s.withPending x).esc = s.esc := rfl
@[simp] theorem withPending_settings (s : State) (x : List Instr) : (s.withPending x).settings = s.settings := rfl
@[simp] theorem withPending_pmc (s : State) (x : List Instr) : (s.withPending x).pmc = s.pmc := rfl
@[simp] theorem withPending_cmm (s : State) (x : List Instr) : (s.withPending x).cmm = s.cmm := rfl
@[simp] theorem withPending_spc (s : State) (x : List Instr) : (s.withPending x).spc = s.spc := rfl
@[simp] theorem withPending_dsp (s : State) (x : List Instr) : (s.withPending x).dsp = s.dsp := rfl
@[simp] theorem withPending_ntw (s : State) (x : List Instr) : (s.withPending x).ntw = s.ntw := rfl
@[simp] theorem withPending_tmb (s : State) (x : List Instr) : (s.withPending x).tmb = s.tmb := rfl
@[simp] theorem withPending_ram (s : State) (x : List Instr) : (s.withPending x).ram = s.ram := rfl
@[simp] theorem withPending_pending (s : State) (x : List Instr) : (s.withPending x).pending = x := rfl

end Sys2Proof.Machine
end

