-- ==== Sys2Proof/Laws/Frames.lean ====
section
/-! SUPPORT. The frame of each shared operation of memory, registers, notices, tones and the mechanism: one lemma for every block of State that the operation leaves as it was. -/
namespace Sys2Proof.Machine

@[simp] theorem refresh_hpa (s : State) : (refresh s).hpa = s.hpa := rfl
@[simp] theorem refresh_klr (s : State) : (refresh s).klr = s.klr := rfl
@[simp] theorem refresh_taq (s : State) : (refresh s).taq = s.taq := rfl
@[simp] theorem refresh_lst (s : State) : (refresh s).lst = s.lst := rfl
@[simp] theorem refresh_esc (s : State) : (refresh s).esc = s.esc := rfl
@[simp] theorem refresh_settings (s : State) : (refresh s).settings = s.settings := rfl
@[simp] theorem refresh_pmc (s : State) : (refresh s).pmc = s.pmc := rfl
@[simp] theorem refresh_cmm (s : State) : (refresh s).cmm = s.cmm := rfl
@[simp] theorem refresh_spc (s : State) : (refresh s).spc = s.spc := rfl
@[simp] theorem refresh_ntw (s : State) : (refresh s).ntw = s.ntw := rfl
@[simp] theorem refresh_tmb (s : State) : (refresh s).tmb = s.tmb := rfl
@[simp] theorem refresh_ram (s : State) : (refresh s).ram = s.ram := rfl
@[simp] theorem refresh_pending (s : State) : (refresh s).pending = s.pending := rfl

@[simp] theorem writeByte_hpa (a : Nat) (v : Byte) (s : State) : (writeByte a v s).hpa = s.hpa := rfl
@[simp] theorem writeByte_klr (a : Nat) (v : Byte) (s : State) : (writeByte a v s).klr = s.klr := rfl
@[simp] theorem writeByte_taq (a : Nat) (v : Byte) (s : State) : (writeByte a v s).taq = s.taq := rfl
@[simp] theorem writeByte_lst (a : Nat) (v : Byte) (s : State) : (writeByte a v s).lst = s.lst := rfl
@[simp] theorem writeByte_esc (a : Nat) (v : Byte) (s : State) : (writeByte a v s).esc = s.esc := rfl
@[simp] theorem writeByte_settings (a : Nat) (v : Byte) (s : State) : (writeByte a v s).settings = s.settings := rfl
@[simp] theorem writeByte_pmc (a : Nat) (v : Byte) (s : State) : (writeByte a v s).pmc = s.pmc := rfl
@[simp] theorem writeByte_cmm (a : Nat) (v : Byte) (s : State) : (writeByte a v s).cmm = s.cmm := rfl
@[simp] theorem writeByte_spc (a : Nat) (v : Byte) (s : State) : (writeByte a v s).spc = s.spc := rfl
@[simp] theorem writeByte_dsp (a : Nat) (v : Byte) (s : State) : (writeByte a v s).dsp = s.dsp := rfl
@[simp] theorem writeByte_ntw (a : Nat) (v : Byte) (s : State) : (writeByte a v s).ntw = s.ntw := rfl
@[simp] theorem writeByte_tmb (a : Nat) (v : Byte) (s : State) : (writeByte a v s).tmb = s.tmb := rfl
@[simp] theorem writeByte_pending (a : Nat) (v : Byte) (s : State) : (writeByte a v s).pending = s.pending := rfl

@[simp] theorem writeHalf_hpa (a : Nat) (v : Half) (s : State) : (writeHalf a v s).hpa = s.hpa := rfl
@[simp] theorem writeHalf_klr (a : Nat) (v : Half) (s : State) : (writeHalf a v s).klr = s.klr := rfl
@[simp] theorem writeHalf_taq (a : Nat) (v : Half) (s : State) : (writeHalf a v s).taq = s.taq := rfl
@[simp] theorem writeHalf_lst (a : Nat) (v : Half) (s : State) : (writeHalf a v s).lst = s.lst := rfl
@[simp] theorem writeHalf_esc (a : Nat) (v : Half) (s : State) : (writeHalf a v s).esc = s.esc := rfl
@[simp] theorem writeHalf_settings (a : Nat) (v : Half) (s : State) : (writeHalf a v s).settings = s.settings := rfl
@[simp] theorem writeHalf_pmc (a : Nat) (v : Half) (s : State) : (writeHalf a v s).pmc = s.pmc := rfl
@[simp] theorem writeHalf_cmm (a : Nat) (v : Half) (s : State) : (writeHalf a v s).cmm = s.cmm := rfl
@[simp] theorem writeHalf_spc (a : Nat) (v : Half) (s : State) : (writeHalf a v s).spc = s.spc := rfl
@[simp] theorem writeHalf_dsp (a : Nat) (v : Half) (s : State) : (writeHalf a v s).dsp = s.dsp := rfl
@[simp] theorem writeHalf_ntw (a : Nat) (v : Half) (s : State) : (writeHalf a v s).ntw = s.ntw := rfl
@[simp] theorem writeHalf_tmb (a : Nat) (v : Half) (s : State) : (writeHalf a v s).tmb = s.tmb := rfl
@[simp] theorem writeHalf_pending (a : Nat) (v : Half) (s : State) : (writeHalf a v s).pending = s.pending := rfl

@[simp] theorem setPoint_hpa (pt : Point) (s : State) : (setPoint pt s).hpa = s.hpa := rfl
@[simp] theorem setPoint_klr (pt : Point) (s : State) : (setPoint pt s).klr = s.klr := rfl
@[simp] theorem setPoint_taq (pt : Point) (s : State) : (setPoint pt s).taq = s.taq := rfl
@[simp] theorem setPoint_settings (pt : Point) (s : State) : (setPoint pt s).settings = s.settings := rfl
@[simp] theorem setPoint_pmc (pt : Point) (s : State) : (setPoint pt s).pmc = s.pmc := rfl
@[simp] theorem setPoint_cmm (pt : Point) (s : State) : (setPoint pt s).cmm = s.cmm := rfl
@[simp] theorem setPoint_spc (pt : Point) (s : State) : (setPoint pt s).spc = s.spc := rfl
@[simp] theorem setPoint_dsp (pt : Point) (s : State) : (setPoint pt s).dsp = s.dsp := rfl
@[simp] theorem setPoint_ntw (pt : Point) (s : State) : (setPoint pt s).ntw = s.ntw := rfl
@[simp] theorem setPoint_tmb (pt : Point) (s : State) : (setPoint pt s).tmb = s.tmb := rfl
@[simp] theorem setPoint_ram (pt : Point) (s : State) : (setPoint pt s).ram = s.ram := rfl
@[simp] theorem setPoint_pending (pt : Point) (s : State) : (setPoint pt s).pending = s.pending := rfl

@[simp] theorem setCells_hpa (cs : List Cell) (s : State) : (setCells cs s).hpa = s.hpa := rfl
@[simp] theorem setCells_klr (cs : List Cell) (s : State) : (setCells cs s).klr = s.klr := rfl
@[simp] theorem setCells_taq (cs : List Cell) (s : State) : (setCells cs s).taq = s.taq := rfl
@[simp] theorem setCells_esc (cs : List Cell) (s : State) : (setCells cs s).esc = s.esc := rfl
@[simp] theorem setCells_settings (cs : List Cell) (s : State) : (setCells cs s).settings = s.settings := rfl
@[simp] theorem setCells_pmc (cs : List Cell) (s : State) : (setCells cs s).pmc = s.pmc := rfl
@[simp] theorem setCells_cmm (cs : List Cell) (s : State) : (setCells cs s).cmm = s.cmm := rfl
@[simp] theorem setCells_spc (cs : List Cell) (s : State) : (setCells cs s).spc = s.spc := rfl
@[simp] theorem setCells_dsp (cs : List Cell) (s : State) : (setCells cs s).dsp = s.dsp := rfl
@[simp] theorem setCells_ntw (cs : List Cell) (s : State) : (setCells cs s).ntw = s.ntw := rfl
@[simp] theorem setCells_tmb (cs : List Cell) (s : State) : (setCells cs s).tmb = s.tmb := rfl
@[simp] theorem setCells_ram (cs : List Cell) (s : State) : (setCells cs s).ram = s.ram := rfl
@[simp] theorem setCells_pending (cs : List Cell) (s : State) : (setCells cs s).pending = s.pending := rfl

@[simp] theorem updateCell_hpa (id : Nat) (f : Cell → Cell) (s : State) : (updateCell id f s).hpa = s.hpa := rfl
@[simp] theorem updateCell_klr (id : Nat) (f : Cell → Cell) (s : State) : (updateCell id f s).klr = s.klr := rfl
@[simp] theorem updateCell_taq (id : Nat) (f : Cell → Cell) (s : State) : (updateCell id f s).taq = s.taq := rfl
@[simp] theorem updateCell_esc (id : Nat) (f : Cell → Cell) (s : State) : (updateCell id f s).esc = s.esc := rfl
@[simp] theorem updateCell_settings (id : Nat) (f : Cell → Cell) (s : State) : (updateCell id f s).settings = s.settings := rfl
@[simp] theorem updateCell_pmc (id : Nat) (f : Cell → Cell) (s : State) : (updateCell id f s).pmc = s.pmc := rfl
@[simp] theorem updateCell_cmm (id : Nat) (f : Cell → Cell) (s : State) : (updateCell id f s).cmm = s.cmm := rfl
@[simp] theorem updateCell_spc (id : Nat) (f : Cell → Cell) (s : State) : (updateCell id f s).spc = s.spc := rfl
@[simp] theorem updateCell_dsp (id : Nat) (f : Cell → Cell) (s : State) : (updateCell id f s).dsp = s.dsp := rfl
@[simp] theorem updateCell_ntw (id : Nat) (f : Cell → Cell) (s : State) : (updateCell id f s).ntw = s.ntw := rfl
@[simp] theorem updateCell_tmb (id : Nat) (f : Cell → Cell) (s : State) : (updateCell id f s).tmb = s.tmb := rfl
@[simp] theorem updateCell_ram (id : Nat) (f : Cell → Cell) (s : State) : (updateCell id f s).ram = s.ram := rfl
@[simp] theorem updateCell_pending (id : Nat) (f : Cell → Cell) (s : State) : (updateCell id f s).pending = s.pending := rfl

@[simp] theorem post_hpa (n : Notice) (s : State) : (post n s).hpa = s.hpa := rfl
@[simp] theorem post_klr (n : Notice) (s : State) : (post n s).klr = s.klr := rfl
@[simp] theorem post_taq (n : Notice) (s : State) : (post n s).taq = s.taq := rfl
@[simp] theorem post_lst (n : Notice) (s : State) : (post n s).lst = s.lst := rfl
@[simp] theorem post_esc (n : Notice) (s : State) : (post n s).esc = s.esc := rfl
@[simp] theorem post_settings (n : Notice) (s : State) : (post n s).settings = s.settings := rfl
@[simp] theorem post_pmc (n : Notice) (s : State) : (post n s).pmc = s.pmc := rfl
@[simp] theorem post_cmm (n : Notice) (s : State) : (post n s).cmm = s.cmm := rfl
@[simp] theorem post_spc (n : Notice) (s : State) : (post n s).spc = s.spc := rfl
@[simp] theorem post_dsp (n : Notice) (s : State) : (post n s).dsp = s.dsp := rfl
@[simp] theorem post_tmb (n : Notice) (s : State) : (post n s).tmb = s.tmb := rfl
@[simp] theorem post_ram (n : Notice) (s : State) : (post n s).ram = s.ram := rfl
@[simp] theorem post_pending (n : Notice) (s : State) : (post n s).pending = s.pending := rfl

@[simp] theorem startTone_hpa (p : Pattern) (s : State) : (startTone p s).hpa = s.hpa := rfl
@[simp] theorem startTone_klr (p : Pattern) (s : State) : (startTone p s).klr = s.klr := rfl
@[simp] theorem startTone_taq (p : Pattern) (s : State) : (startTone p s).taq = s.taq := rfl
@[simp] theorem startTone_lst (p : Pattern) (s : State) : (startTone p s).lst = s.lst := rfl
@[simp] theorem startTone_esc (p : Pattern) (s : State) : (startTone p s).esc = s.esc := rfl
@[simp] theorem startTone_settings (p : Pattern) (s : State) : (startTone p s).settings = s.settings := rfl
@[simp] theorem startTone_pmc (p : Pattern) (s : State) : (startTone p s).pmc = s.pmc := rfl
@[simp] theorem startTone_cmm (p : Pattern) (s : State) : (startTone p s).cmm = s.cmm := rfl
@[simp] theorem startTone_spc (p : Pattern) (s : State) : (startTone p s).spc = s.spc := rfl
@[simp] theorem startTone_ntw (p : Pattern) (s : State) : (startTone p s).ntw = s.ntw := rfl
@[simp] theorem startTone_ram (p : Pattern) (s : State) : (startTone p s).ram = s.ram := rfl
@[simp] theorem startTone_pending (p : Pattern) (s : State) : (startTone p s).pending = s.pending := rfl

@[simp] theorem requestTone_hpa (p : Pattern) (s : State) : (requestTone p s).hpa = s.hpa := by unfold requestTone; (try dsimp only); (repeat' split) <;> simp
@[simp] theorem requestTone_klr (p : Pattern) (s : State) : (requestTone p s).klr = s.klr := by unfold requestTone; (try dsimp only); (repeat' split) <;> simp
@[simp] theorem requestTone_taq (p : Pattern) (s : State) : (requestTone p s).taq = s.taq := by unfold requestTone; (try dsimp only); (repeat' split) <;> simp
@[simp] theorem requestTone_lst (p : Pattern) (s : State) : (requestTone p s).lst = s.lst := by unfold requestTone; (try dsimp only); (repeat' split) <;> simp
@[simp] theorem requestTone_esc (p : Pattern) (s : State) : (requestTone p s).esc = s.esc := by unfold requestTone; (try dsimp only); (repeat' split) <;> simp
@[simp] theorem requestTone_settings (p : Pattern) (s : State) : (requestTone p s).settings = s.settings := by unfold requestTone; (try dsimp only); (repeat' split) <;> simp
@[simp] theorem requestTone_pmc (p : Pattern) (s : State) : (requestTone p s).pmc = s.pmc := by unfold requestTone; (try dsimp only); (repeat' split) <;> simp
@[simp] theorem requestTone_cmm (p : Pattern) (s : State) : (requestTone p s).cmm = s.cmm := by unfold requestTone; (try dsimp only); (repeat' split) <;> simp
@[simp] theorem requestTone_spc (p : Pattern) (s : State) : (requestTone p s).spc = s.spc := by unfold requestTone; (try dsimp only); (repeat' split) <;> simp
@[simp] theorem requestTone_ntw (p : Pattern) (s : State) : (requestTone p s).ntw = s.ntw := by unfold requestTone; (try dsimp only); (repeat' split) <;> simp
@[simp] theorem requestTone_ram (p : Pattern) (s : State) : (requestTone p s).ram = s.ram := by unfold requestTone; (try dsimp only); (repeat' split) <;> simp
@[simp] theorem requestTone_pending (p : Pattern) (s : State) : (requestTone p s).pending = s.pending := by unfold requestTone; (try dsimp only); (repeat' split) <;> simp

@[simp] theorem restartRest_hpa (s : State) : (restartRest s).hpa = s.hpa := rfl
@[simp] theorem restartRest_klr (s : State) : (restartRest s).klr = s.klr := rfl
@[simp] theorem restartRest_taq (s : State) : (restartRest s).taq = s.taq := rfl
@[simp] theorem restartRest_lst (s : State) : (restartRest s).lst = s.lst := rfl
@[simp] theorem restartRest_esc (s : State) : (restartRest s).esc = s.esc := rfl
@[simp] theorem restartRest_settings (s : State) : (restartRest s).settings = s.settings := rfl
@[simp] theorem restartRest_pmc (s : State) : (restartRest s).pmc = s.pmc := rfl
@[simp] theorem restartRest_cmm (s : State) : (restartRest s).cmm = s.cmm := rfl
@[simp] theorem restartRest_spc (s : State) : (restartRest s).spc = s.spc := rfl
@[simp] theorem restartRest_dsp (s : State) : (restartRest s).dsp = s.dsp := rfl
@[simp] theorem restartRest_ntw (s : State) : (restartRest s).ntw = s.ntw := rfl
@[simp] theorem restartRest_ram (s : State) : (restartRest s).ram = s.ram := rfl
@[simp] theorem restartRest_pending (s : State) : (restartRest s).pending = s.pending := rfl

@[simp] theorem setEvent_klr (b : EventBit) (s : State) : (setEvent b s).klr = s.klr := rfl
@[simp] theorem setEvent_taq (b : EventBit) (s : State) : (setEvent b s).taq = s.taq := rfl
@[simp] theorem setEvent_lst (b : EventBit) (s : State) : (setEvent b s).lst = s.lst := rfl
@[simp] theorem setEvent_esc (b : EventBit) (s : State) : (setEvent b s).esc = s.esc := rfl
@[simp] theorem setEvent_settings (b : EventBit) (s : State) : (setEvent b s).settings = s.settings := rfl
@[simp] theorem setEvent_pmc (b : EventBit) (s : State) : (setEvent b s).pmc = s.pmc := rfl
@[simp] theorem setEvent_cmm (b : EventBit) (s : State) : (setEvent b s).cmm = s.cmm := rfl
@[simp] theorem setEvent_spc (b : EventBit) (s : State) : (setEvent b s).spc = s.spc := rfl
@[simp] theorem setEvent_dsp (b : EventBit) (s : State) : (setEvent b s).dsp = s.dsp := rfl
@[simp] theorem setEvent_ntw (b : EventBit) (s : State) : (setEvent b s).ntw = s.ntw := rfl
@[simp] theorem setEvent_tmb (b : EventBit) (s : State) : (setEvent b s).tmb = s.tmb := rfl
@[simp] theorem setEvent_ram (b : EventBit) (s : State) : (setEvent b s).ram = s.ram := rfl
@[simp] theorem setEvent_pending (b : EventBit) (s : State) : (setEvent b s).pending = s.pending := rfl

@[simp] theorem setRun_klr (b : Bool) (s : State) : (setRun b s).klr = s.klr := rfl
@[simp] theorem setRun_taq (b : Bool) (s : State) : (setRun b s).taq = s.taq := rfl
@[simp] theorem setRun_lst (b : Bool) (s : State) : (setRun b s).lst = s.lst := rfl
@[simp] theorem setRun_esc (b : Bool) (s : State) : (setRun b s).esc = s.esc := rfl
@[simp] theorem setRun_settings (b : Bool) (s : State) : (setRun b s).settings = s.settings := rfl
@[simp] theorem setRun_pmc (b : Bool) (s : State) : (setRun b s).pmc = s.pmc := rfl
@[simp] theorem setRun_cmm (b : Bool) (s : State) : (setRun b s).cmm = s.cmm := rfl
@[simp] theorem setRun_spc (b : Bool) (s : State) : (setRun b s).spc = s.spc := rfl
@[simp] theorem setRun_dsp (b : Bool) (s : State) : (setRun b s).dsp = s.dsp := rfl
@[simp] theorem setRun_ntw (b : Bool) (s : State) : (setRun b s).ntw = s.ntw := rfl
@[simp] theorem setRun_tmb (b : Bool) (s : State) : (setRun b s).tmb = s.tmb := rfl
@[simp] theorem setRun_ram (b : Bool) (s : State) : (setRun b s).ram = s.ram := rfl
@[simp] theorem setRun_pending (b : Bool) (s : State) : (setRun b s).pending = s.pending := rfl

@[simp] theorem setQuiet_klr (b : Bool) (s : State) : (setQuiet b s).klr = s.klr := rfl
@[simp] theorem setQuiet_taq (b : Bool) (s : State) : (setQuiet b s).taq = s.taq := rfl
@[simp] theorem setQuiet_lst (b : Bool) (s : State) : (setQuiet b s).lst = s.lst := rfl
@[simp] theorem setQuiet_esc (b : Bool) (s : State) : (setQuiet b s).esc = s.esc := rfl
@[simp] theorem setQuiet_settings (b : Bool) (s : State) : (setQuiet b s).settings = s.settings := rfl
@[simp] theorem setQuiet_pmc (b : Bool) (s : State) : (setQuiet b s).pmc = s.pmc := rfl
@[simp] theorem setQuiet_cmm (b : Bool) (s : State) : (setQuiet b s).cmm = s.cmm := rfl
@[simp] theorem setQuiet_spc (b : Bool) (s : State) : (setQuiet b s).spc = s.spc := rfl
@[simp] theorem setQuiet_dsp (b : Bool) (s : State) : (setQuiet b s).dsp = s.dsp := rfl
@[simp] theorem setQuiet_ntw (b : Bool) (s : State) : (setQuiet b s).ntw = s.ntw := rfl
@[simp] theorem setQuiet_tmb (b : Bool) (s : State) : (setQuiet b s).tmb = s.tmb := rfl
@[simp] theorem setQuiet_ram (b : Bool) (s : State) : (setQuiet b s).ram = s.ram := rfl
@[simp] theorem setQuiet_pending (b : Bool) (s : State) : (setQuiet b s).pending = s.pending := rfl

@[simp] theorem endMessage_hpa (s : State) : (endMessage s).hpa = s.hpa := rfl
@[simp] theorem endMessage_klr (s : State) : (endMessage s).klr = s.klr := rfl
@[simp] theorem endMessage_taq (s : State) : (endMessage s).taq = s.taq := rfl
@[simp] theorem endMessage_lst (s : State) : (endMessage s).lst = s.lst := rfl
@[simp] theorem endMessage_esc (s : State) : (endMessage s).esc = s.esc := rfl
@[simp] theorem endMessage_settings (s : State) : (endMessage s).settings = s.settings := rfl
@[simp] theorem endMessage_pmc (s : State) : (endMessage s).pmc = s.pmc := rfl
@[simp] theorem endMessage_cmm (s : State) : (endMessage s).cmm = s.cmm := rfl
@[simp] theorem endMessage_spc (s : State) : (endMessage s).spc = s.spc := rfl
@[simp] theorem endMessage_ntw (s : State) : (endMessage s).ntw = s.ntw := rfl
@[simp] theorem endMessage_ram (s : State) : (endMessage s).ram = s.ram := rfl
@[simp] theorem endMessage_pending (s : State) : (endMessage s).pending = s.pending := rfl

@[simp] theorem leaveHead_hpa (a : Action) (s : State) : (leaveHead a s).hpa = s.hpa := by unfold leaveHead; (try dsimp only); (repeat' split) <;> simp
@[simp] theorem leaveHead_klr (a : Action) (s : State) : (leaveHead a s).klr = s.klr := by unfold leaveHead; (try dsimp only); (repeat' split) <;> simp
@[simp] theorem leaveHead_esc (a : Action) (s : State) : (leaveHead a s).esc = s.esc := by unfold leaveHead; (try dsimp only); (repeat' split) <;> simp
@[simp] theorem leaveHead_settings (a : Action) (s : State) : (leaveHead a s).settings = s.settings := by unfold leaveHead; (try dsimp only); (repeat' split) <;> simp
@[simp] theorem leaveHead_pmc (a : Action) (s : State) : (leaveHead a s).pmc = s.pmc := by unfold leaveHead; (try dsimp only); (repeat' split) <;> simp
@[simp] theorem leaveHead_cmm (a : Action) (s : State) : (leaveHead a s).cmm = s.cmm := by unfold leaveHead; (try dsimp only); (repeat' split) <;> simp
@[simp] theorem leaveHead_spc (a : Action) (s : State) : (leaveHead a s).spc = s.spc := by unfold leaveHead; (try dsimp only); (repeat' split) <;> simp
@[simp] theorem leaveHead_ntw (a : Action) (s : State) : (leaveHead a s).ntw = s.ntw := by unfold leaveHead; (try dsimp only); (repeat' split) <;> simp
@[simp] theorem leaveHead_ram (a : Action) (s : State) : (leaveHead a s).ram = s.ram := by unfold leaveHead; (try dsimp only); (repeat' split) <;> simp
@[simp] theorem leaveHead_pending (a : Action) (s : State) : (leaveHead a s).pending = s.pending := by unfold leaveHead; (try dsimp only); (repeat' split) <;> simp

@[simp] theorem finishAction_hpa (a : Action) (s : State) : (finishAction a s).hpa = s.hpa := by unfold finishAction; (try dsimp only); (repeat' split) <;> simp
@[simp] theorem finishAction_klr (a : Action) (s : State) : (finishAction a s).klr = s.klr := by unfold finishAction; (try dsimp only); (repeat' split) <;> simp
@[simp] theorem finishAction_esc (a : Action) (s : State) : (finishAction a s).esc = s.esc := by unfold finishAction; (try dsimp only); (repeat' split) <;> simp
@[simp] theorem finishAction_settings (a : Action) (s : State) : (finishAction a s).settings = s.settings := by unfold finishAction; (try dsimp only); (repeat' split) <;> simp
@[simp] theorem finishAction_pmc (a : Action) (s : State) : (finishAction a s).pmc = s.pmc := by unfold finishAction; (try dsimp only); (repeat' split) <;> simp
@[simp] theorem finishAction_cmm (a : Action) (s : State) : (finishAction a s).cmm = s.cmm := by unfold finishAction; (try dsimp only); (repeat' split) <;> simp
@[simp] theorem finishAction_spc (a : Action) (s : State) : (finishAction a s).spc = s.spc := by unfold finishAction; (try dsimp only); (repeat' split) <;> simp
@[simp] theorem finishAction_ntw (a : Action) (s : State) : (finishAction a s).ntw = s.ntw := by unfold finishAction; (try dsimp only); (repeat' split) <;> simp
@[simp] theorem finishAction_ram (a : Action) (s : State) : (finishAction a s).ram = s.ram := by unfold finishAction; (try dsimp only); (repeat' split) <;> simp
@[simp] theorem finishAction_pending (a : Action) (s : State) : (finishAction a s).pending = s.pending := by unfold finishAction; (try dsimp only); (repeat' split) <;> simp

@[simp] theorem refuseTone_hpa (r : Reason) (s : State) : (refuseTone r s).hpa = s.hpa := by unfold refuseTone; (try dsimp only); (repeat' split) <;> simp
@[simp] theorem refuseTone_klr (r : Reason) (s : State) : (refuseTone r s).klr = s.klr := by unfold refuseTone; (try dsimp only); (repeat' split) <;> simp
@[simp] theorem refuseTone_taq (r : Reason) (s : State) : (refuseTone r s).taq = s.taq := by unfold refuseTone; (try dsimp only); (repeat' split) <;> simp
@[simp] theorem refuseTone_lst (r : Reason) (s : State) : (refuseTone r s).lst = s.lst := by unfold refuseTone; (try dsimp only); (repeat' split) <;> simp
@[simp] theorem refuseTone_esc (r : Reason) (s : State) : (refuseTone r s).esc = s.esc := by unfold refuseTone; (try dsimp only); (repeat' split) <;> simp
@[simp] theorem refuseTone_settings (r : Reason) (s : State) : (refuseTone r s).settings = s.settings := by unfold refuseTone; (try dsimp only); (repeat' split) <;> simp
@[simp] theorem refuseTone_pmc (r : Reason) (s : State) : (refuseTone r s).pmc = s.pmc := by unfold refuseTone; (try dsimp only); (repeat' split) <;> simp
@[simp] theorem refuseTone_cmm (r : Reason) (s : State) : (refuseTone r s).cmm = s.cmm := by unfold refuseTone; (try dsimp only); (repeat' split) <;> simp
@[simp] theorem refuseTone_spc (r : Reason) (s : State) : (refuseTone r s).spc = s.spc := by unfold refuseTone; (try dsimp only); (repeat' split) <;> simp
@[simp] theorem refuseTone_ntw (r : Reason) (s : State) : (refuseTone r s).ntw = s.ntw := by unfold refuseTone; (try dsimp only); (repeat' split) <;> simp
@[simp] theorem refuseTone_ram (r : Reason) (s : State) : (refuseTone r s).ram = s.ram := by unfold refuseTone; (try dsimp only); (repeat' split) <;> simp
@[simp] theorem refuseTone_pending (r : Reason) (s : State) : (refuseTone r s).pending = s.pending := by unfold refuseTone; (try dsimp only); (repeat' split) <;> simp

@[simp] theorem refuseWith_hpa (r : Reason) (tag : Half) (a : Action) (s : State) : (refuseWith r tag a s).hpa = s.hpa := by unfold refuseWith; (try dsimp only); (repeat' split) <;> simp
@[simp] theorem refuseWith_klr (r : Reason) (tag : Half) (a : Action) (s : State) : (refuseWith r tag a s).klr = s.klr := by unfold refuseWith; (try dsimp only); (repeat' split) <;> simp
@[simp] theorem refuseWith_esc (r : Reason) (tag : Half) (a : Action) (s : State) : (refuseWith r tag a s).esc = s.esc := by unfold refuseWith; (try dsimp only); (repeat' split) <;> simp
@[simp] theorem refuseWith_settings (r : Reason) (tag : Half) (a : Action) (s : State) : (refuseWith r tag a s).settings = s.settings := by unfold refuseWith; (try dsimp only); (repeat' split) <;> simp
@[simp] theorem refuseWith_pmc (r : Reason) (tag : Half) (a : Action) (s : State) : (refuseWith r tag a s).pmc = s.pmc := by unfold refuseWith; (try dsimp only); (repeat' split) <;> simp
@[simp] theorem refuseWith_cmm (r : Reason) (tag : Half) (a : Action) (s : State) : (refuseWith r tag a s).cmm = s.cmm := by unfold refuseWith; (try dsimp only); (repeat' split) <;> simp
@[simp] theorem refuseWith_spc (r : Reason) (tag : Half) (a : Action) (s : State) : (refuseWith r tag a s).spc = s.spc := by unfold refuseWith; (try dsimp only); (repeat' split) <;> simp
@[simp] theorem refuseWith_ram (r : Reason) (tag : Half) (a : Action) (s : State) : (refuseWith r tag a s).ram = s.ram := by unfold refuseWith; (try dsimp only); (repeat' split) <;> simp
@[simp] theorem refuseWith_pending (r : Reason) (tag : Half) (a : Action) (s : State) : (refuseWith r tag a s).pending = s.pending := by unfold refuseWith; (try dsimp only); (repeat' split) <;> simp

@[simp] theorem refuse_hpa (r : Reason) (a : Action) (s : State) : (refuse r a s).hpa = s.hpa := by unfold refuse; (try dsimp only); (repeat' split) <;> simp
@[simp] theorem refuse_klr (r : Reason) (a : Action) (s : State) : (refuse r a s).klr = s.klr := by unfold refuse; (try dsimp only); (repeat' split) <;> simp
@[simp] theorem refuse_esc (r : Reason) (a : Action) (s : State) : (refuse r a s).esc = s.esc := by unfold refuse; (try dsimp only); (repeat' split) <;> simp
@[simp] theorem refuse_settings (r : Reason) (a : Action) (s : State) : (refuse r a s).settings = s.settings := by unfold refuse; (try dsimp only); (repeat' split) <;> simp
@[simp] theorem refuse_pmc (r : Reason) (a : Action) (s : State) : (refuse r a s).pmc = s.pmc := by unfold refuse; (try dsimp only); (repeat' split) <;> simp
@[simp] theorem refuse_cmm (r : Reason) (a : Action) (s : State) : (refuse r a s).cmm = s.cmm := by unfold refuse; (try dsimp only); (repeat' split) <;> simp
@[simp] theorem refuse_spc (r : Reason) (a : Action) (s : State) : (refuse r a s).spc = s.spc := by unfold refuse; (try dsimp only); (repeat' split) <;> simp
@[simp] theorem refuse_ram (r : Reason) (a : Action) (s : State) : (refuse r a s).ram = s.ram := by unfold refuse; (try dsimp only); (repeat' split) <;> simp
@[simp] theorem refuse_pending (r : Reason) (a : Action) (s : State) : (refuse r a s).pending = s.pending := by unfold refuse; (try dsimp only); (repeat' split) <;> simp

@[simp] theorem placeOp_hpa (b : OpBody) (s : State) : (placeOp b s).hpa = s.hpa := rfl
@[simp] theorem placeOp_klr (b : OpBody) (s : State) : (placeOp b s).klr = s.klr := rfl
@[simp] theorem placeOp_taq (b : OpBody) (s : State) : (placeOp b s).taq = s.taq := rfl
@[simp] theorem placeOp_lst (b : OpBody) (s : State) : (placeOp b s).lst = s.lst := rfl
@[simp] theorem placeOp_esc (b : OpBody) (s : State) : (placeOp b s).esc = s.esc := rfl
@[simp] theorem placeOp_settings (b : OpBody) (s : State) : (placeOp b s).settings = s.settings := rfl
@[simp] theorem placeOp_cmm (b : OpBody) (s : State) : (placeOp b s).cmm = s.cmm := rfl
@[simp] theorem placeOp_spc (b : OpBody) (s : State) : (placeOp b s).spc = s.spc := rfl
@[simp] theorem placeOp_dsp (b : OpBody) (s : State) : (placeOp b s).dsp = s.dsp := rfl
@[simp] theorem placeOp_ntw (b : OpBody) (s : State) : (placeOp b s).ntw = s.ntw := rfl
@[simp] theorem placeOp_tmb (b : OpBody) (s : State) : (placeOp b s).tmb = s.tmb := rfl
@[simp] theorem placeOp_ram (b : OpBody) (s : State) : (placeOp b s).ram = s.ram := rfl
@[simp] theorem placeOp_pending (b : OpBody) (s : State) : (placeOp b s).pending = s.pending := rfl

@[simp] theorem setWork_hpa (ops : List Operation) (s : State) : (setWork ops s).hpa = s.hpa := by unfold setWork; (try dsimp only); (repeat' split) <;> simp
@[simp] theorem setWork_klr (ops : List Operation) (s : State) : (setWork ops s).klr = s.klr := by unfold setWork; (try dsimp only); (repeat' split) <;> simp
@[simp] theorem setWork_taq (ops : List Operation) (s : State) : (setWork ops s).taq = s.taq := by unfold setWork; (try dsimp only); (repeat' split) <;> simp
@[simp] theorem setWork_lst (ops : List Operation) (s : State) : (setWork ops s).lst = s.lst := by unfold setWork; (try dsimp only); (repeat' split) <;> simp
@[simp] theorem setWork_esc (ops : List Operation) (s : State) : (setWork ops s).esc = s.esc := by unfold setWork; (try dsimp only); (repeat' split) <;> simp
@[simp] theorem setWork_settings (ops : List Operation) (s : State) : (setWork ops s).settings = s.settings := by unfold setWork; (try dsimp only); (repeat' split) <;> simp
@[simp] theorem setWork_cmm (ops : List Operation) (s : State) : (setWork ops s).cmm = s.cmm := by unfold setWork; (try dsimp only); (repeat' split) <;> simp
@[simp] theorem setWork_spc (ops : List Operation) (s : State) : (setWork ops s).spc = s.spc := by unfold setWork; (try dsimp only); (repeat' split) <;> simp
@[simp] theorem setWork_dsp (ops : List Operation) (s : State) : (setWork ops s).dsp = s.dsp := by unfold setWork; (try dsimp only); (repeat' split) <;> simp
@[simp] theorem setWork_ntw (ops : List Operation) (s : State) : (setWork ops s).ntw = s.ntw := by unfold setWork; (try dsimp only); (repeat' split) <;> simp
@[simp] theorem setWork_ram (ops : List Operation) (s : State) : (setWork ops s).ram = s.ram := by unfold setWork; (try dsimp only); (repeat' split) <;> simp
@[simp] theorem setWork_pending (ops : List Operation) (s : State) : (setWork ops s).pending = s.pending := by unfold setWork; (try dsimp only); (repeat' split) <;> simp

@[simp] theorem removeFront_hpa (s : State) : (removeFront s).hpa = s.hpa := by unfold removeFront; (try dsimp only); (repeat' split) <;> simp
@[simp] theorem removeFront_klr (s : State) : (removeFront s).klr = s.klr := by unfold removeFront; (try dsimp only); (repeat' split) <;> simp
@[simp] theorem removeFront_taq (s : State) : (removeFront s).taq = s.taq := by unfold removeFront; (try dsimp only); (repeat' split) <;> simp
@[simp] theorem removeFront_lst (s : State) : (removeFront s).lst = s.lst := by unfold removeFront; (try dsimp only); (repeat' split) <;> simp
@[simp] theorem removeFront_esc (s : State) : (removeFront s).esc = s.esc := by unfold removeFront; (try dsimp only); (repeat' split) <;> simp
@[simp] theorem removeFront_settings (s : State) : (removeFront s).settings = s.settings := by unfold removeFront; (try dsimp only); (repeat' split) <;> simp
@[simp] theorem removeFront_cmm (s : State) : (removeFront s).cmm = s.cmm := by unfold removeFront; (try dsimp only); (repeat' split) <;> simp
@[simp] theorem removeFront_spc (s : State) : (removeFront s).spc = s.spc := by unfold removeFront; (try dsimp only); (repeat' split) <;> simp
@[simp] theorem removeFront_dsp (s : State) : (removeFront s).dsp = s.dsp := by unfold removeFront; (try dsimp only); (repeat' split) <;> simp
@[simp] theorem removeFront_ntw (s : State) : (removeFront s).ntw = s.ntw := by unfold removeFront; (try dsimp only); (repeat' split) <;> simp
@[simp] theorem removeFront_ram (s : State) : (removeFront s).ram = s.ram := by unfold removeFront; (try dsimp only); (repeat' split) <;> simp
@[simp] theorem removeFront_pending (s : State) : (removeFront s).pending = s.pending := by unfold removeFront; (try dsimp only); (repeat' split) <;> simp

@[simp] theorem updateFront_hpa (f : Operation → Operation) (s : State) : (updateFront f s).hpa = s.hpa := by unfold updateFront; (try dsimp only); (repeat' split) <;> simp
@[simp] theorem updateFront_klr (f : Operation → Operation) (s : State) : (updateFront f s).klr = s.klr := by unfold updateFront; (try dsimp only); (repeat' split) <;> simp
@[simp] theorem updateFront_taq (f : Operation → Operation) (s : State) : (updateFront f s).taq = s.taq := by unfold updateFront; (try dsimp only); (repeat' split) <;> simp
@[simp] theorem updateFront_lst (f : Operation → Operation) (s : State) : (updateFront f s).lst = s.lst := by unfold updateFront; (try dsimp only); (repeat' split) <;> simp
@[simp] theorem updateFront_esc (f : Operation → Operation) (s : State) : (updateFront f s).esc = s.esc := by unfold updateFront; (try dsimp only); (repeat' split) <;> simp
@[simp] theorem updateFront_settings (f : Operation → Operation) (s : State) : (updateFront f s).settings = s.settings := by unfold updateFront; (try dsimp only); (repeat' split) <;> simp
@[simp] theorem updateFront_cmm (f : Operation → Operation) (s : State) : (updateFront f s).cmm = s.cmm := by unfold updateFront; (try dsimp only); (repeat' split) <;> simp
@[simp] theorem updateFront_spc (f : Operation → Operation) (s : State) : (updateFront f s).spc = s.spc := by unfold updateFront; (try dsimp only); (repeat' split) <;> simp
@[simp] theorem updateFront_dsp (f : Operation → Operation) (s : State) : (updateFront f s).dsp = s.dsp := by unfold updateFront; (try dsimp only); (repeat' split) <;> simp
@[simp] theorem updateFront_ntw (f : Operation → Operation) (s : State) : (updateFront f s).ntw = s.ntw := by unfold updateFront; (try dsimp only); (repeat' split) <;> simp
@[simp] theorem updateFront_tmb (f : Operation → Operation) (s : State) : (updateFront f s).tmb = s.tmb := by unfold updateFront; (try dsimp only); (repeat' split) <;> simp
@[simp] theorem updateFront_ram (f : Operation → Operation) (s : State) : (updateFront f s).ram = s.ram := by unfold updateFront; (try dsimp only); (repeat' split) <;> simp
@[simp] theorem updateFront_pending (f : Operation → Operation) (s : State) : (updateFront f s).pending = s.pending := by unfold updateFront; (try dsimp only); (repeat' split) <;> simp

@[simp] theorem reportPrinted_hpa (id : Nat) (s : State) : (reportPrinted id s).hpa = s.hpa := rfl
@[simp] theorem reportPrinted_klr (id : Nat) (s : State) : (reportPrinted id s).klr = s.klr := rfl
@[simp] theorem reportPrinted_taq (id : Nat) (s : State) : (reportPrinted id s).taq = s.taq := rfl
@[simp] theorem reportPrinted_esc (id : Nat) (s : State) : (reportPrinted id s).esc = s.esc := rfl
@[simp] theorem reportPrinted_settings (id : Nat) (s : State) : (reportPrinted id s).settings = s.settings := rfl
@[simp] theorem reportPrinted_pmc (id : Nat) (s : State) : (reportPrinted id s).pmc = s.pmc := rfl
@[simp] theorem reportPrinted_cmm (id : Nat) (s : State) : (reportPrinted id s).cmm = s.cmm := rfl
@[simp] theorem reportPrinted_spc (id : Nat) (s : State) : (reportPrinted id s).spc = s.spc := rfl
@[simp] theorem reportPrinted_dsp (id : Nat) (s : State) : (reportPrinted id s).dsp = s.dsp := rfl
@[simp] theorem reportPrinted_ntw (id : Nat) (s : State) : (reportPrinted id s).ntw = s.ntw := rfl
@[simp] theorem reportPrinted_tmb (id : Nat) (s : State) : (reportPrinted id s).tmb = s.tmb := rfl
@[simp] theorem reportPrinted_ram (id : Nat) (s : State) : (reportPrinted id s).ram = s.ram := rfl
@[simp] theorem reportPrinted_pending (id : Nat) (s : State) : (reportPrinted id s).pending = s.pending := rfl

@[simp] theorem reportLifted_hpa (id : Nat) (s : State) : (reportLifted id s).hpa = s.hpa := rfl
@[simp] theorem reportLifted_klr (id : Nat) (s : State) : (reportLifted id s).klr = s.klr := rfl
@[simp] theorem reportLifted_taq (id : Nat) (s : State) : (reportLifted id s).taq = s.taq := rfl
@[simp] theorem reportLifted_esc (id : Nat) (s : State) : (reportLifted id s).esc = s.esc := rfl
@[simp] theorem reportLifted_settings (id : Nat) (s : State) : (reportLifted id s).settings = s.settings := rfl
@[simp] theorem reportLifted_pmc (id : Nat) (s : State) : (reportLifted id s).pmc = s.pmc := rfl
@[simp] theorem reportLifted_cmm (id : Nat) (s : State) : (reportLifted id s).cmm = s.cmm := rfl
@[simp] theorem reportLifted_spc (id : Nat) (s : State) : (reportLifted id s).spc = s.spc := rfl
@[simp] theorem reportLifted_dsp (id : Nat) (s : State) : (reportLifted id s).dsp = s.dsp := rfl
@[simp] theorem reportLifted_ntw (id : Nat) (s : State) : (reportLifted id s).ntw = s.ntw := rfl
@[simp] theorem reportLifted_tmb (id : Nat) (s : State) : (reportLifted id s).tmb = s.tmb := rfl
@[simp] theorem reportLifted_ram (id : Nat) (s : State) : (reportLifted id s).ram = s.ram := rfl
@[simp] theorem reportLifted_pending (id : Nat) (s : State) : (reportLifted id s).pending = s.pending := rfl

@[simp] theorem reportAbandoned_hpa (id : Nat) (s : State) : (reportAbandoned id s).hpa = s.hpa := rfl
@[simp] theorem reportAbandoned_klr (id : Nat) (s : State) : (reportAbandoned id s).klr = s.klr := rfl
@[simp] theorem reportAbandoned_taq (id : Nat) (s : State) : (reportAbandoned id s).taq = s.taq := rfl
@[simp] theorem reportAbandoned_esc (id : Nat) (s : State) : (reportAbandoned id s).esc = s.esc := rfl
@[simp] theorem reportAbandoned_settings (id : Nat) (s : State) : (reportAbandoned id s).settings = s.settings := rfl
@[simp] theorem reportAbandoned_pmc (id : Nat) (s : State) : (reportAbandoned id s).pmc = s.pmc := rfl
@[simp] theorem reportAbandoned_cmm (id : Nat) (s : State) : (reportAbandoned id s).cmm = s.cmm := rfl
@[simp] theorem reportAbandoned_spc (id : Nat) (s : State) : (reportAbandoned id s).spc = s.spc := rfl
@[simp] theorem reportAbandoned_dsp (id : Nat) (s : State) : (reportAbandoned id s).dsp = s.dsp := rfl
@[simp] theorem reportAbandoned_ntw (id : Nat) (s : State) : (reportAbandoned id s).ntw = s.ntw := rfl
@[simp] theorem reportAbandoned_tmb (id : Nat) (s : State) : (reportAbandoned id s).tmb = s.tmb := rfl
@[simp] theorem reportAbandoned_ram (id : Nat) (s : State) : (reportAbandoned id s).ram = s.ram := rfl
@[simp] theorem reportAbandoned_pending (id : Nat) (s : State) : (reportAbandoned id s).pending = s.pending := rfl

@[simp] theorem stopWalk_hpa (s : State) : (stopWalk s).hpa = s.hpa := by unfold stopWalk; (try dsimp only); (repeat' split) <;> simp
@[simp] theorem stopWalk_klr (s : State) : (stopWalk s).klr = s.klr := by unfold stopWalk; (try dsimp only); (repeat' split) <;> simp
@[simp] theorem stopWalk_esc (s : State) : (stopWalk s).esc = s.esc := by unfold stopWalk; (try dsimp only); (repeat' split) <;> simp
@[simp] theorem stopWalk_settings (s : State) : (stopWalk s).settings = s.settings := by unfold stopWalk; (try dsimp only); (repeat' split) <;> simp
@[simp] theorem stopWalk_pmc (s : State) : (stopWalk s).pmc = s.pmc := by unfold stopWalk; (try dsimp only); (repeat' split) <;> simp
@[simp] theorem stopWalk_cmm (s : State) : (stopWalk s).cmm = s.cmm := by unfold stopWalk; (try dsimp only); (repeat' split) <;> simp
@[simp] theorem stopWalk_spc (s : State) : (stopWalk s).spc = s.spc := by unfold stopWalk; (try dsimp only); (repeat' split) <;> simp
@[simp] theorem stopWalk_ntw (s : State) : (stopWalk s).ntw = s.ntw := by unfold stopWalk; (try dsimp only); (repeat' split) <;> simp
@[simp] theorem stopWalk_ram (s : State) : (stopWalk s).ram = s.ram := by unfold stopWalk; (try dsimp only); (repeat' split) <;> simp
@[simp] theorem stopWalk_pending (s : State) : (stopWalk s).pending = s.pending := by unfold stopWalk; (try dsimp only); (repeat' split) <;> simp

@[simp] theorem enterHeld_klr (s : State) : (enterHeld s).klr = s.klr := rfl
@[simp] theorem enterHeld_taq (s : State) : (enterHeld s).taq = s.taq := rfl
@[simp] theorem enterHeld_lst (s : State) : (enterHeld s).lst = s.lst := rfl
@[simp] theorem enterHeld_esc (s : State) : (enterHeld s).esc = s.esc := rfl
@[simp] theorem enterHeld_settings (s : State) : (enterHeld s).settings = s.settings := rfl
@[simp] theorem enterHeld_cmm (s : State) : (enterHeld s).cmm = s.cmm := rfl
@[simp] theorem enterHeld_spc (s : State) : (enterHeld s).spc = s.spc := rfl
@[simp] theorem enterHeld_dsp (s : State) : (enterHeld s).dsp = s.dsp := rfl
@[simp] theorem enterHeld_ntw (s : State) : (enterHeld s).ntw = s.ntw := rfl
@[simp] theorem enterHeld_tmb (s : State) : (enterHeld s).tmb = s.tmb := rfl
@[simp] theorem enterHeld_ram (s : State) : (enterHeld s).ram = s.ram := rfl
@[simp] theorem enterHeld_pending (s : State) : (enterHeld s).pending = s.pending := rfl

@[simp] theorem toReady_klr (s : State) : (toReady s).klr = s.klr := by unfold toReady; (try dsimp only); (repeat' split) <;> simp
@[simp] theorem toReady_taq (s : State) : (toReady s).taq = s.taq := by unfold toReady; (try dsimp only); (repeat' split) <;> simp
@[simp] theorem toReady_lst (s : State) : (toReady s).lst = s.lst := by unfold toReady; (try dsimp only); (repeat' split) <;> simp
@[simp] theorem toReady_esc (s : State) : (toReady s).esc = s.esc := by unfold toReady; (try dsimp only); (repeat' split) <;> simp
@[simp] theorem toReady_settings (s : State) : (toReady s).settings = s.settings := by unfold toReady; (try dsimp only); (repeat' split) <;> simp
@[simp] theorem toReady_cmm (s : State) : (toReady s).cmm = s.cmm := by unfold toReady; (try dsimp only); (repeat' split) <;> simp
@[simp] theorem toReady_spc (s : State) : (toReady s).spc = s.spc := by unfold toReady; (try dsimp only); (repeat' split) <;> simp
@[simp] theorem toReady_dsp (s : State) : (toReady s).dsp = s.dsp := by unfold toReady; (try dsimp only); (repeat' split) <;> simp
@[simp] theorem toReady_ntw (s : State) : (toReady s).ntw = s.ntw := by unfold toReady; (try dsimp only); (repeat' split) <;> simp
@[simp] theorem toReady_tmb (s : State) : (toReady s).tmb = s.tmb := by unfold toReady; (try dsimp only); (repeat' split) <;> simp
@[simp] theorem toReady_ram (s : State) : (toReady s).ram = s.ram := by unfold toReady; (try dsimp only); (repeat' split) <;> simp
@[simp] theorem toReady_pending (s : State) : (toReady s).pending = s.pending := by unfold toReady; (try dsimp only); (repeat' split) <;> simp

@[simp] theorem startSettle_hpa (s : State) : (startSettle s).hpa = s.hpa := by unfold startSettle; (try dsimp only); (repeat' split) <;> simp
@[simp] theorem startSettle_klr (s : State) : (startSettle s).klr = s.klr := by unfold startSettle; (try dsimp only); (repeat' split) <;> simp
@[simp] theorem startSettle_taq (s : State) : (startSettle s).taq = s.taq := by unfold startSettle; (try dsimp only); (repeat' split) <;> simp
@[simp] theorem startSettle_lst (s : State) : (startSettle s).lst = s.lst := by unfold startSettle; (try dsimp only); (repeat' split) <;> simp
@[simp] theorem startSettle_esc (s : State) : (startSettle s).esc = s.esc := by unfold startSettle; (try dsimp only); (repeat' split) <;> simp
@[simp] theorem startSettle_settings (s : State) : (startSettle s).settings = s.settings := by unfold startSettle; (try dsimp only); (repeat' split) <;> simp
@[simp] theorem startSettle_pmc (s : State) : (startSettle s).pmc = s.pmc := by unfold startSettle; (try dsimp only); (repeat' split) <;> simp
@[simp] theorem startSettle_cmm (s : State) : (startSettle s).cmm = s.cmm := by unfold startSettle; (try dsimp only); (repeat' split) <;> simp
@[simp] theorem startSettle_spc (s : State) : (startSettle s).spc = s.spc := by unfold startSettle; (try dsimp only); (repeat' split) <;> simp
@[simp] theorem startSettle_dsp (s : State) : (startSettle s).dsp = s.dsp := by unfold startSettle; (try dsimp only); (repeat' split) <;> simp
@[simp] theorem startSettle_ntw (s : State) : (startSettle s).ntw = s.ntw := by unfold startSettle; (try dsimp only); (repeat' split) <;> simp
@[simp] theorem startSettle_ram (s : State) : (startSettle s).ram = s.ram := by unfold startSettle; (try dsimp only); (repeat' split) <;> simp
@[simp] theorem startSettle_pending (s : State) : (startSettle s).pending = s.pending := by unfold startSettle; (try dsimp only); (repeat' split) <;> simp

@[simp] theorem enterMoving_hpa (s : State) : (enterMoving s).hpa = s.hpa := by unfold enterMoving; (try dsimp only); (repeat' split) <;> simp
@[simp] theorem enterMoving_klr (s : State) : (enterMoving s).klr = s.klr := by unfold enterMoving; (try dsimp only); (repeat' split) <;> simp
@[simp] theorem enterMoving_taq (s : State) : (enterMoving s).taq = s.taq := by unfold enterMoving; (try dsimp only); (repeat' split) <;> simp
@[simp] theorem enterMoving_lst (s : State) : (enterMoving s).lst = s.lst := by unfold enterMoving; (try dsimp only); (repeat' split) <;> simp
@[simp] theorem enterMoving_esc (s : State) : (enterMoving s).esc = s.esc := by unfold enterMoving; (try dsimp only); (repeat' split) <;> simp
@[simp] theorem enterMoving_settings (s : State) : (enterMoving s).settings = s.settings := by unfold enterMoving; (try dsimp only); (repeat' split) <;> simp
@[simp] theorem enterMoving_cmm (s : State) : (enterMoving s).cmm = s.cmm := by unfold enterMoving; (try dsimp only); (repeat' split) <;> simp
@[simp] theorem enterMoving_spc (s : State) : (enterMoving s).spc = s.spc := by unfold enterMoving; (try dsimp only); (repeat' split) <;> simp
@[simp] theorem enterMoving_dsp (s : State) : (enterMoving s).dsp = s.dsp := by unfold enterMoving; (try dsimp only); (repeat' split) <;> simp
@[simp] theorem enterMoving_ntw (s : State) : (enterMoving s).ntw = s.ntw := by unfold enterMoving; (try dsimp only); (repeat' split) <;> simp
@[simp] theorem enterMoving_ram (s : State) : (enterMoving s).ram = s.ram := by unfold enterMoving; (try dsimp only); (repeat' split) <;> simp
@[simp] theorem enterMoving_pending (s : State) : (enterMoving s).pending = s.pending := by unfold enterMoving; (try dsimp only); (repeat' split) <;> simp

@[simp] theorem enterStriking_hpa (s : State) : (enterStriking s).hpa = s.hpa := rfl
@[simp] theorem enterStriking_klr (s : State) : (enterStriking s).klr = s.klr := rfl
@[simp] theorem enterStriking_taq (s : State) : (enterStriking s).taq = s.taq := rfl
@[simp] theorem enterStriking_lst (s : State) : (enterStriking s).lst = s.lst := rfl
@[simp] theorem enterStriking_esc (s : State) : (enterStriking s).esc = s.esc := rfl
@[simp] theorem enterStriking_settings (s : State) : (enterStriking s).settings = s.settings := rfl
@[simp] theorem enterStriking_cmm (s : State) : (enterStriking s).cmm = s.cmm := rfl
@[simp] theorem enterStriking_spc (s : State) : (enterStriking s).spc = s.spc := rfl
@[simp] theorem enterStriking_dsp (s : State) : (enterStriking s).dsp = s.dsp := rfl
@[simp] theorem enterStriking_ntw (s : State) : (enterStriking s).ntw = s.ntw := rfl
@[simp] theorem enterStriking_tmb (s : State) : (enterStriking s).tmb = s.tmb := rfl
@[simp] theorem enterStriking_ram (s : State) : (enterStriking s).ram = s.ram := rfl
@[simp] theorem enterStriking_pending (s : State) : (enterStriking s).pending = s.pending := rfl

@[simp] theorem stopCarriage_hpa (n : Nat) (s : State) : (stopCarriage n s).hpa = s.hpa := by unfold stopCarriage; (try dsimp only); (repeat' split) <;> simp
@[simp] theorem stopCarriage_klr (n : Nat) (s : State) : (stopCarriage n s).klr = s.klr := by unfold stopCarriage; (try dsimp only); (repeat' split) <;> simp
@[simp] theorem stopCarriage_taq (n : Nat) (s : State) : (stopCarriage n s).taq = s.taq := by unfold stopCarriage; (try dsimp only); (repeat' split) <;> simp
@[simp] theorem stopCarriage_lst (n : Nat) (s : State) : (stopCarriage n s).lst = s.lst := by unfold stopCarriage; (try dsimp only); (repeat' split) <;> simp
@[simp] theorem stopCarriage_esc (n : Nat) (s : State) : (stopCarriage n s).esc = s.esc := by unfold stopCarriage; (try dsimp only); (repeat' split) <;> simp
@[simp] theorem stopCarriage_settings (n : Nat) (s : State) : (stopCarriage n s).settings = s.settings := by unfold stopCarriage; (try dsimp only); (repeat' split) <;> simp
@[simp] theorem stopCarriage_cmm (n : Nat) (s : State) : (stopCarriage n s).cmm = s.cmm := by unfold stopCarriage; (try dsimp only); (repeat' split) <;> simp
@[simp] theorem stopCarriage_spc (n : Nat) (s : State) : (stopCarriage n s).spc = s.spc := by unfold stopCarriage; (try dsimp only); (repeat' split) <;> simp
@[simp] theorem stopCarriage_dsp (n : Nat) (s : State) : (stopCarriage n s).dsp = s.dsp := by unfold stopCarriage; (try dsimp only); (repeat' split) <;> simp
@[simp] theorem stopCarriage_ntw (n : Nat) (s : State) : (stopCarriage n s).ntw = s.ntw := by unfold stopCarriage; (try dsimp only); (repeat' split) <;> simp
@[simp] theorem stopCarriage_tmb (n : Nat) (s : State) : (stopCarriage n s).tmb = s.tmb := by unfold stopCarriage; (try dsimp only); (repeat' split) <;> simp
@[simp] theorem stopCarriage_ram (n : Nat) (s : State) : (stopCarriage n s).ram = s.ram := by unfold stopCarriage; (try dsimp only); (repeat' split) <;> simp
@[simp] theorem stopCarriage_pending (n : Nat) (s : State) : (stopCarriage n s).pending = s.pending := by unfold stopCarriage; (try dsimp only); (repeat' split) <;> simp

@[simp] theorem enterFault_klr (r : FaultReason) (s : State) : (enterFault r s).klr = s.klr := by unfold enterFault; (try dsimp only); (repeat' split) <;> simp
@[simp] theorem enterFault_taq (r : FaultReason) (s : State) : (enterFault r s).taq = s.taq := by unfold enterFault; (try dsimp only); (repeat' split) <;> simp
@[simp] theorem enterFault_lst (r : FaultReason) (s : State) : (enterFault r s).lst = s.lst := by unfold enterFault; (try dsimp only); (repeat' split) <;> simp
@[simp] theorem enterFault_esc (r : FaultReason) (s : State) : (enterFault r s).esc = s.esc := by unfold enterFault; (try dsimp only); (repeat' split) <;> simp
@[simp] theorem enterFault_settings (r : FaultReason) (s : State) : (enterFault r s).settings = s.settings := by unfold enterFault; (try dsimp only); (repeat' split) <;> simp
@[simp] theorem enterFault_cmm (r : FaultReason) (s : State) : (enterFault r s).cmm = s.cmm := by unfold enterFault; (try dsimp only); (repeat' split) <;> simp
@[simp] theorem enterFault_spc (r : FaultReason) (s : State) : (enterFault r s).spc = s.spc := by unfold enterFault; (try dsimp only); (repeat' split) <;> simp
@[simp] theorem enterFault_ram (r : FaultReason) (s : State) : (enterFault r s).ram = s.ram := by unfold enterFault; (try dsimp only); (repeat' split) <;> simp
@[simp] theorem enterFault_pending (r : FaultReason) (s : State) : (enterFault r s).pending = s.pending := by unfold enterFault; (try dsimp only); (repeat' split) <;> simp

@[simp] theorem countStrikes_hpa (n : Nat) (s : State) : (countStrikes n s).hpa = s.hpa := rfl
@[simp] theorem countStrikes_klr (n : Nat) (s : State) : (countStrikes n s).klr = s.klr := rfl
@[simp] theorem countStrikes_taq (n : Nat) (s : State) : (countStrikes n s).taq = s.taq := rfl
@[simp] theorem countStrikes_lst (n : Nat) (s : State) : (countStrikes n s).lst = s.lst := rfl
@[simp] theorem countStrikes_esc (n : Nat) (s : State) : (countStrikes n s).esc = s.esc := rfl
@[simp] theorem countStrikes_settings (n : Nat) (s : State) : (countStrikes n s).settings = s.settings := rfl
@[simp] theorem countStrikes_cmm (n : Nat) (s : State) : (countStrikes n s).cmm = s.cmm := rfl
@[simp] theorem countStrikes_spc (n : Nat) (s : State) : (countStrikes n s).spc = s.spc := rfl
@[simp] theorem countStrikes_dsp (n : Nat) (s : State) : (countStrikes n s).dsp = s.dsp := rfl
@[simp] theorem countStrikes_ntw (n : Nat) (s : State) : (countStrikes n s).ntw = s.ntw := rfl
@[simp] theorem countStrikes_tmb (n : Nat) (s : State) : (countStrikes n s).tmb = s.tmb := rfl
@[simp] theorem countStrikes_ram (n : Nat) (s : State) : (countStrikes n s).ram = s.ram := rfl
@[simp] theorem countStrikes_pending (n : Nat) (s : State) : (countStrikes n s).pending = s.pending := rfl

@[simp] theorem completeStrike_hpa (b : Bool) (s : State) : (completeStrike b s).hpa = s.hpa := by unfold completeStrike; (try dsimp only); (repeat' split) <;> simp
@[simp] theorem completeStrike_klr (b : Bool) (s : State) : (completeStrike b s).klr = s.klr := by unfold completeStrike; (try dsimp only); (repeat' split) <;> simp
@[simp] theorem completeStrike_taq (b : Bool) (s : State) : (completeStrike b s).taq = s.taq := by unfold completeStrike; (try dsimp only); (repeat' split) <;> simp
@[simp] theorem completeStrike_esc (b : Bool) (s : State) : (completeStrike b s).esc = s.esc := by unfold completeStrike; (try dsimp only); (repeat' split) <;> simp
@[simp] theorem completeStrike_settings (b : Bool) (s : State) : (completeStrike b s).settings = s.settings := by unfold completeStrike; (try dsimp only); (repeat' split) <;> simp
@[simp] theorem completeStrike_cmm (b : Bool) (s : State) : (completeStrike b s).cmm = s.cmm := by unfold completeStrike; (try dsimp only); (repeat' split) <;> simp
@[simp] theorem completeStrike_spc (b : Bool) (s : State) : (completeStrike b s).spc = s.spc := by unfold completeStrike; (try dsimp only); (repeat' split) <;> simp
@[simp] theorem completeStrike_dsp (b : Bool) (s : State) : (completeStrike b s).dsp = s.dsp := by unfold completeStrike; (try dsimp only); (repeat' split) <;> simp
@[simp] theorem completeStrike_ntw (b : Bool) (s : State) : (completeStrike b s).ntw = s.ntw := by unfold completeStrike; (try dsimp only); (repeat' split) <;> simp
@[simp] theorem completeStrike_ram (b : Bool) (s : State) : (completeStrike b s).ram = s.ram := by unfold completeStrike; (try dsimp only); (repeat' split) <;> simp
@[simp] theorem completeStrike_pending (b : Bool) (s : State) : (completeStrike b s).pending = s.pending := by unfold completeStrike; (try dsimp only); (repeat' split) <;> simp

@[simp] theorem abandonLift_hpa (s : State) : (abandonLift s).hpa = s.hpa := by unfold abandonLift; (try dsimp only); (repeat' split) <;> simp
@[simp] theorem abandonLift_klr (s : State) : (abandonLift s).klr = s.klr := by unfold abandonLift; (try dsimp only); (repeat' split) <;> simp
@[simp] theorem abandonLift_esc (s : State) : (abandonLift s).esc = s.esc := by unfold abandonLift; (try dsimp only); (repeat' split) <;> simp
@[simp] theorem abandonLift_settings (s : State) : (abandonLift s).settings = s.settings := by unfold abandonLift; (try dsimp only); (repeat' split) <;> simp
@[simp] theorem abandonLift_cmm (s : State) : (abandonLift s).cmm = s.cmm := by unfold abandonLift; (try dsimp only); (repeat' split) <;> simp
@[simp] theorem abandonLift_spc (s : State) : (abandonLift s).spc = s.spc := by unfold abandonLift; (try dsimp only); (repeat' split) <;> simp
@[simp] theorem abandonLift_ram (s : State) : (abandonLift s).ram = s.ram := by unfold abandonLift; (try dsimp only); (repeat' split) <;> simp
@[simp] theorem abandonLift_pending (s : State) : (abandonLift s).pending = s.pending := by unfold abandonLift; (try dsimp only); (repeat' split) <;> simp

@[simp] theorem startFront_hpa (s : State) : (startFront s).hpa = s.hpa := by unfold startFront; (try dsimp only); (repeat' split) <;> simp
@[simp] theorem startFront_klr (s : State) : (startFront s).klr = s.klr := by unfold startFront; (try dsimp only); (repeat' split) <;> simp
@[simp] theorem startFront_taq (s : State) : (startFront s).taq = s.taq := by unfold startFront; (try dsimp only); (repeat' split) <;> simp
@[simp] theorem startFront_lst (s : State) : (startFront s).lst = s.lst := by unfold startFront; (try dsimp only); (repeat' split) <;> simp
@[simp] theorem startFront_esc (s : State) : (startFront s).esc = s.esc := by unfold startFront; (try dsimp only); (repeat' split) <;> simp
@[simp] theorem startFront_settings (s : State) : (startFront s).settings = s.settings := by unfold startFront; (try dsimp only); (repeat' split) <;> simp
@[simp] theorem startFront_cmm (s : State) : (startFront s).cmm = s.cmm := by unfold startFront; (try dsimp only); (repeat' split) <;> simp
@[simp] theorem startFront_spc (s : State) : (startFront s).spc = s.spc := by unfold startFront; (try dsimp only); (repeat' split) <;> simp
@[simp] theorem startFront_dsp (s : State) : (startFront s).dsp = s.dsp := by unfold startFront; (try dsimp only); (repeat' split) <;> simp
@[simp] theorem startFront_ntw (s : State) : (startFront s).ntw = s.ntw := by unfold startFront; (try dsimp only); (repeat' split) <;> simp
@[simp] theorem startFront_tmb (s : State) : (startFront s).tmb = s.tmb := by unfold startFront; (try dsimp only); (repeat' split) <;> simp
@[simp] theorem startFront_ram (s : State) : (startFront s).ram = s.ram := by unfold startFront; (try dsimp only); (repeat' split) <;> simp
@[simp] theorem startFront_pending (s : State) : (startFront s).pending = s.pending := by unfold startFront; (try dsimp only); (repeat' split) <;> simp

@[simp] theorem readSensors_hpa (r : Sensors) (s : State) : (readSensors r s).hpa = s.hpa := rfl
@[simp] theorem readSensors_klr (r : Sensors) (s : State) : (readSensors r s).klr = s.klr := rfl
@[simp] theorem readSensors_taq (r : Sensors) (s : State) : (readSensors r s).taq = s.taq := rfl
@[simp] theorem readSensors_lst (r : Sensors) (s : State) : (readSensors r s).lst = s.lst := rfl
@[simp] theorem readSensors_esc (r : Sensors) (s : State) : (readSensors r s).esc = s.esc := rfl
@[simp] theorem readSensors_settings (r : Sensors) (s : State) : (readSensors r s).settings = s.settings := rfl
@[simp] theorem readSensors_cmm (r : Sensors) (s : State) : (readSensors r s).cmm = s.cmm := rfl
@[simp] theorem readSensors_spc (r : Sensors) (s : State) : (readSensors r s).spc = s.spc := rfl
@[simp] theorem readSensors_dsp (r : Sensors) (s : State) : (readSensors r s).dsp = s.dsp := rfl
@[simp] theorem readSensors_ntw (r : Sensors) (s : State) : (readSensors r s).ntw = s.ntw := rfl
@[simp] theorem readSensors_tmb (r : Sensors) (s : State) : (readSensors r s).tmb = s.tmb := rfl
@[simp] theorem readSensors_ram (r : Sensors) (s : State) : (readSensors r s).ram = s.ram := rfl
@[simp] theorem readSensors_pending (r : Sensors) (s : State) : (readSensors r s).pending = s.pending := rfl

@[simp] theorem takeUp_klr (o : Operation) (s : State) : (takeUp o s).klr = s.klr := by unfold takeUp; (try dsimp only); (repeat' split) <;> simp
@[simp] theorem takeUp_esc (o : Operation) (s : State) : (takeUp o s).esc = s.esc := by unfold takeUp; (try dsimp only); (repeat' split) <;> simp
@[simp] theorem takeUp_settings (o : Operation) (s : State) : (takeUp o s).settings = s.settings := by unfold takeUp; (try dsimp only); (repeat' split) <;> simp
@[simp] theorem takeUp_cmm (o : Operation) (s : State) : (takeUp o s).cmm = s.cmm := by unfold takeUp; (try dsimp only); (repeat' split) <;> simp
@[simp] theorem takeUp_spc (o : Operation) (s : State) : (takeUp o s).spc = s.spc := by unfold takeUp; (try dsimp only); (repeat' split) <;> simp
@[simp] theorem takeUp_ram (o : Operation) (s : State) : (takeUp o s).ram = s.ram := by unfold takeUp; (try dsimp only); (repeat' split) <;> simp
@[simp] theorem takeUp_pending (o : Operation) (s : State) : (takeUp o s).pending = s.pending := by unfold takeUp; (try dsimp only); (repeat' split) <;> simp

@[simp] theorem resume_klr (s : State) : (resume s).klr = s.klr := by unfold resume; (try dsimp only); (repeat' split) <;> simp
@[simp] theorem resume_esc (s : State) : (resume s).esc = s.esc := by unfold resume; (try dsimp only); (repeat' split) <;> simp
@[simp] theorem resume_settings (s : State) : (resume s).settings = s.settings := by unfold resume; (try dsimp only); (repeat' split) <;> simp
@[simp] theorem resume_cmm (s : State) : (resume s).cmm = s.cmm := by unfold resume; (try dsimp only); (repeat' split) <;> simp
@[simp] theorem resume_spc (s : State) : (resume s).spc = s.spc := by unfold resume; (try dsimp only); (repeat' split) <;> simp
@[simp] theorem resume_ram (s : State) : (resume s).ram = s.ram := by unfold resume; (try dsimp only); (repeat' split) <;> simp
@[simp] theorem resume_pending (s : State) : (resume s).pending = s.pending := by unfold resume; (try dsimp only); (repeat' split) <;> simp

@[simp] theorem beginHoming_hpa (k : HomingKind) (s : State) : (beginHoming k s).hpa = s.hpa := rfl
@[simp] theorem beginHoming_klr (k : HomingKind) (s : State) : (beginHoming k s).klr = s.klr := rfl
@[simp] theorem beginHoming_taq (k : HomingKind) (s : State) : (beginHoming k s).taq = s.taq := rfl
@[simp] theorem beginHoming_lst (k : HomingKind) (s : State) : (beginHoming k s).lst = s.lst := rfl
@[simp] theorem beginHoming_esc (k : HomingKind) (s : State) : (beginHoming k s).esc = s.esc := rfl
@[simp] theorem beginHoming_settings (k : HomingKind) (s : State) : (beginHoming k s).settings = s.settings := rfl
@[simp] theorem beginHoming_cmm (k : HomingKind) (s : State) : (beginHoming k s).cmm = s.cmm := rfl
@[simp] theorem beginHoming_spc (k : HomingKind) (s : State) : (beginHoming k s).spc = s.spc := rfl
@[simp] theorem beginHoming_dsp (k : HomingKind) (s : State) : (beginHoming k s).dsp = s.dsp := rfl
@[simp] theorem beginHoming_ntw (k : HomingKind) (s : State) : (beginHoming k s).ntw = s.ntw := rfl
@[simp] theorem beginHoming_tmb (k : HomingKind) (s : State) : (beginHoming k s).tmb = s.tmb := rfl
@[simp] theorem beginHoming_ram (k : HomingKind) (s : State) : (beginHoming k s).ram = s.ram := rfl
@[simp] theorem beginHoming_pending (k : HomingKind) (s : State) : (beginHoming k s).pending = s.pending := rfl

@[simp] theorem homingWheelFound_klr (k : HomingKind) (s : State) : (homingWheelFound k s).klr = s.klr := by unfold homingWheelFound; (try dsimp only); (repeat' split) <;> simp
@[simp] theorem homingWheelFound_esc (k : HomingKind) (s : State) : (homingWheelFound k s).esc = s.esc := by unfold homingWheelFound; (try dsimp only); (repeat' split) <;> simp
@[simp] theorem homingWheelFound_settings (k : HomingKind) (s : State) : (homingWheelFound k s).settings = s.settings := by unfold homingWheelFound; (try dsimp only); (repeat' split) <;> simp
@[simp] theorem homingWheelFound_cmm (k : HomingKind) (s : State) : (homingWheelFound k s).cmm = s.cmm := by unfold homingWheelFound; (try dsimp only); (repeat' split) <;> simp
@[simp] theorem homingWheelFound_spc (k : HomingKind) (s : State) : (homingWheelFound k s).spc = s.spc := by unfold homingWheelFound; (try dsimp only); (repeat' split) <;> simp
@[simp] theorem homingWheelFound_ram (k : HomingKind) (s : State) : (homingWheelFound k s).ram = s.ram := by unfold homingWheelFound; (try dsimp only); (repeat' split) <;> simp
@[simp] theorem homingWheelFound_pending (k : HomingKind) (s : State) : (homingWheelFound k s).pending = s.pending := by unfold homingWheelFound; (try dsimp only); (repeat' split) <;> simp

@[simp] theorem park_hpa (w : ParkedWork) (s : State) : (park w s).hpa = s.hpa := rfl
@[simp] theorem park_klr (w : ParkedWork) (s : State) : (park w s).klr = s.klr := rfl
@[simp] theorem park_taq (w : ParkedWork) (s : State) : (park w s).taq = s.taq := rfl
@[simp] theorem park_lst (w : ParkedWork) (s : State) : (park w s).lst = s.lst := rfl
@[simp] theorem park_esc (w : ParkedWork) (s : State) : (park w s).esc = s.esc := rfl
@[simp] theorem park_settings (w : ParkedWork) (s : State) : (park w s).settings = s.settings := rfl
@[simp] theorem park_cmm (w : ParkedWork) (s : State) : (park w s).cmm = s.cmm := rfl
@[simp] theorem park_spc (w : ParkedWork) (s : State) : (park w s).spc = s.spc := rfl
@[simp] theorem park_dsp (w : ParkedWork) (s : State) : (park w s).dsp = s.dsp := rfl
@[simp] theorem park_ntw (w : ParkedWork) (s : State) : (park w s).ntw = s.ntw := rfl
@[simp] theorem park_ram (w : ParkedWork) (s : State) : (park w s).ram = s.ram := rfl
@[simp] theorem park_pending (w : ParkedWork) (s : State) : (park w s).pending = s.pending := rfl

@[simp] theorem noteFed_hpa (n : Nat) (s : State) : (noteFed n s).hpa = s.hpa := by unfold noteFed; (try dsimp only); (repeat' split) <;> simp
@[simp] theorem noteFed_klr (n : Nat) (s : State) : (noteFed n s).klr = s.klr := by unfold noteFed; (try dsimp only); (repeat' split) <;> simp
@[simp] theorem noteFed_taq (n : Nat) (s : State) : (noteFed n s).taq = s.taq := by unfold noteFed; (try dsimp only); (repeat' split) <;> simp
@[simp] theorem noteFed_lst (n : Nat) (s : State) : (noteFed n s).lst = s.lst := by unfold noteFed; (try dsimp only); (repeat' split) <;> simp
@[simp] theorem noteFed_esc (n : Nat) (s : State) : (noteFed n s).esc = s.esc := by unfold noteFed; (try dsimp only); (repeat' split) <;> simp
@[simp] theorem noteFed_settings (n : Nat) (s : State) : (noteFed n s).settings = s.settings := by unfold noteFed; (try dsimp only); (repeat' split) <;> simp
@[simp] theorem noteFed_cmm (n : Nat) (s : State) : (noteFed n s).cmm = s.cmm := by unfold noteFed; (try dsimp only); (repeat' split) <;> simp
@[simp] theorem noteFed_spc (n : Nat) (s : State) : (noteFed n s).spc = s.spc := by unfold noteFed; (try dsimp only); (repeat' split) <;> simp
@[simp] theorem noteFed_dsp (n : Nat) (s : State) : (noteFed n s).dsp = s.dsp := by unfold noteFed; (try dsimp only); (repeat' split) <;> simp
@[simp] theorem noteFed_ntw (n : Nat) (s : State) : (noteFed n s).ntw = s.ntw := by unfold noteFed; (try dsimp only); (repeat' split) <;> simp
@[simp] theorem noteFed_tmb (n : Nat) (s : State) : (noteFed n s).tmb = s.tmb := by unfold noteFed; (try dsimp only); (repeat' split) <;> simp
@[simp] theorem noteFed_ram (n : Nat) (s : State) : (noteFed n s).ram = s.ram := by unfold noteFed; (try dsimp only); (repeat' split) <;> simp
@[simp] theorem noteFed_pending (n : Nat) (s : State) : (noteFed n s).pending = s.pending := by unfold noteFed; (try dsimp only); (repeat' split) <;> simp

@[simp] theorem coverOpened_hpa (c : Nat) (n : Nat) (s : State) : (coverOpened c n s).hpa = s.hpa := by unfold coverOpened; (try dsimp only); (repeat' split) <;> simp
@[simp] theorem coverOpened_klr (c : Nat) (n : Nat) (s : State) : (coverOpened c n s).klr = s.klr := by unfold coverOpened; (try dsimp only); (repeat' split) <;> simp
@[simp] theorem coverOpened_taq (c : Nat) (n : Nat) (s : State) : (coverOpened c n s).taq = s.taq := by unfold coverOpened; (try dsimp only); (repeat' split) <;> simp
@[simp] theorem coverOpened_esc (c : Nat) (n : Nat) (s : State) : (coverOpened c n s).esc = s.esc := by unfold coverOpened; (try dsimp only); (repeat' split) <;> simp
@[simp] theorem coverOpened_settings (c : Nat) (n : Nat) (s : State) : (coverOpened c n s).settings = s.settings := by unfold coverOpened; (try dsimp only); (repeat' split) <;> simp
@[simp] theorem coverOpened_cmm (c : Nat) (n : Nat) (s : State) : (coverOpened c n s).cmm = s.cmm := by unfold coverOpened; (try dsimp only); (repeat' split) <;> simp
@[simp] theorem coverOpened_spc (c : Nat) (n : Nat) (s : State) : (coverOpened c n s).spc = s.spc := by unfold coverOpened; (try dsimp only); (repeat' split) <;> simp
@[simp] theorem coverOpened_dsp (c : Nat) (n : Nat) (s : State) : (coverOpened c n s).dsp = s.dsp := by unfold coverOpened; (try dsimp only); (repeat' split) <;> simp
@[simp] theorem coverOpened_ntw (c : Nat) (n : Nat) (s : State) : (coverOpened c n s).ntw = s.ntw := by unfold coverOpened; (try dsimp only); (repeat' split) <;> simp
@[simp] theorem coverOpened_ram (c : Nat) (n : Nat) (s : State) : (coverOpened c n s).ram = s.ram := by unfold coverOpened; (try dsimp only); (repeat' split) <;> simp
@[simp] theorem coverOpened_pending (c : Nat) (n : Nat) (s : State) : (coverOpened c n s).pending = s.pending := by unfold coverOpened; (try dsimp only); (repeat' split) <;> simp

@[simp] theorem coverClosed_hpa (c : Nat) (s : State) : (coverClosed c s).hpa = s.hpa := by unfold coverClosed; (try dsimp only); (repeat' split) <;> simp
@[simp] theorem coverClosed_klr (c : Nat) (s : State) : (coverClosed c s).klr = s.klr := by unfold coverClosed; (try dsimp only); (repeat' split) <;> simp
@[simp] theorem coverClosed_taq (c : Nat) (s : State) : (coverClosed c s).taq = s.taq := by unfold coverClosed; (try dsimp only); (repeat' split) <;> simp
@[simp] theorem coverClosed_lst (c : Nat) (s : State) : (coverClosed c s).lst = s.lst := by unfold coverClosed; (try dsimp only); (repeat' split) <;> simp
@[simp] theorem coverClosed_esc (c : Nat) (s : State) : (coverClosed c s).esc = s.esc := by unfold coverClosed; (try dsimp only); (repeat' split) <;> simp
@[simp] theorem coverClosed_settings (c : Nat) (s : State) : (coverClosed c s).settings = s.settings := by unfold coverClosed; (try dsimp only); (repeat' split) <;> simp
@[simp] theorem coverClosed_cmm (c : Nat) (s : State) : (coverClosed c s).cmm = s.cmm := by unfold coverClosed; (try dsimp only); (repeat' split) <;> simp
@[simp] theorem coverClosed_spc (c : Nat) (s : State) : (coverClosed c s).spc = s.spc := by unfold coverClosed; (try dsimp only); (repeat' split) <;> simp
@[simp] theorem coverClosed_dsp (c : Nat) (s : State) : (coverClosed c s).dsp = s.dsp := by unfold coverClosed; (try dsimp only); (repeat' split) <;> simp
@[simp] theorem coverClosed_ntw (c : Nat) (s : State) : (coverClosed c s).ntw = s.ntw := by unfold coverClosed; (try dsimp only); (repeat' split) <;> simp
@[simp] theorem coverClosed_tmb (c : Nat) (s : State) : (coverClosed c s).tmb = s.tmb := by unfold coverClosed; (try dsimp only); (repeat' split) <;> simp
@[simp] theorem coverClosed_ram (c : Nat) (s : State) : (coverClosed c s).ram = s.ram := by unfold coverClosed; (try dsimp only); (repeat' split) <;> simp
@[simp] theorem coverClosed_pending (c : Nat) (s : State) : (coverClosed c s).pending = s.pending := by unfold coverClosed; (try dsimp only); (repeat' split) <;> simp

@[simp] theorem coverChanged_klr (b : Bool) (c : Nat) (n : Nat) (s : State) : (coverChanged b c n s).klr = s.klr := by unfold coverChanged; (try dsimp only); (repeat' split) <;> simp
@[simp] theorem coverChanged_taq (b : Bool) (c : Nat) (n : Nat) (s : State) : (coverChanged b c n s).taq = s.taq := by unfold coverChanged; (try dsimp only); (repeat' split) <;> simp
@[simp] theorem coverChanged_esc (b : Bool) (c : Nat) (n : Nat) (s : State) : (coverChanged b c n s).esc = s.esc := by unfold coverChanged; (try dsimp only); (repeat' split) <;> simp
@[simp] theorem coverChanged_settings (b : Bool) (c : Nat) (n : Nat) (s : State) : (coverChanged b c n s).settings = s.settings := by unfold coverChanged; (try dsimp only); (repeat' split) <;> simp
@[simp] theorem coverChanged_cmm (b : Bool) (c : Nat) (n : Nat) (s : State) : (coverChanged b c n s).cmm = s.cmm := by unfold coverChanged; (try dsimp only); (repeat' split) <;> simp
@[simp] theorem coverChanged_spc (b : Bool) (c : Nat) (n : Nat) (s : State) : (coverChanged b c n s).spc = s.spc := by unfold coverChanged; (try dsimp only); (repeat' split) <;> simp
@[simp] theorem coverChanged_dsp (b : Bool) (c : Nat) (n : Nat) (s : State) : (coverChanged b c n s).dsp = s.dsp := by unfold coverChanged; (try dsimp only); (repeat' split) <;> simp
@[simp] theorem coverChanged_ntw (b : Bool) (c : Nat) (n : Nat) (s : State) : (coverChanged b c n s).ntw = s.ntw := by unfold coverChanged; (try dsimp only); (repeat' split) <;> simp
@[simp] theorem coverChanged_ram (b : Bool) (c : Nat) (n : Nat) (s : State) : (coverChanged b c n s).ram = s.ram := by unfold coverChanged; (try dsimp only); (repeat' split) <;> simp
@[simp] theorem coverChanged_pending (b : Bool) (c : Nat) (n : Nat) (s : State) : (coverChanged b c n s).pending = s.pending := by unfold coverChanged; (try dsimp only); (repeat' split) <;> simp

@[simp] theorem sampleCover_klr (b : Bool) (c : Nat) (n : Nat) (s : State) : (sampleCover b c n s).klr = s.klr := by unfold sampleCover; (try dsimp only); (repeat' split) <;> simp
@[simp] theorem sampleCover_taq (b : Bool) (c : Nat) (n : Nat) (s : State) : (sampleCover b c n s).taq = s.taq := by unfold sampleCover; (try dsimp only); (repeat' split) <;> simp
@[simp] theorem sampleCover_esc (b : Bool) (c : Nat) (n : Nat) (s : State) : (sampleCover b c n s).esc = s.esc := by unfold sampleCover; (try dsimp only); (repeat' split) <;> simp
@[simp] theorem sampleCover_settings (b : Bool) (c : Nat) (n : Nat) (s : State) : (sampleCover b c n s).settings = s.settings := by unfold sampleCover; (try dsimp only); (repeat' split) <;> simp
@[simp] theorem sampleCover_cmm (b : Bool) (c : Nat) (n : Nat) (s : State) : (sampleCover b c n s).cmm = s.cmm := by unfold sampleCover; (try dsimp only); (repeat' split) <;> simp
@[simp] theorem sampleCover_spc (b : Bool) (c : Nat) (n : Nat) (s : State) : (sampleCover b c n s).spc = s.spc := by unfold sampleCover; (try dsimp only); (repeat' split) <;> simp
@[simp] theorem sampleCover_dsp (b : Bool) (c : Nat) (n : Nat) (s : State) : (sampleCover b c n s).dsp = s.dsp := by unfold sampleCover; (try dsimp only); (repeat' split) <;> simp
@[simp] theorem sampleCover_ntw (b : Bool) (c : Nat) (n : Nat) (s : State) : (sampleCover b c n s).ntw = s.ntw := by unfold sampleCover; (try dsimp only); (repeat' split) <;> simp
@[simp] theorem sampleCover_ram (b : Bool) (c : Nat) (n : Nat) (s : State) : (sampleCover b c n s).ram = s.ram := by unfold sampleCover; (try dsimp only); (repeat' split) <;> simp
@[simp] theorem sampleCover_pending (b : Bool) (c : Nat) (n : Nat) (s : State) : (sampleCover b c n s).pending = s.pending := by unfold sampleCover; (try dsimp only); (repeat' split) <;> simp

theorem writeBytes_only (vs : List Byte) (a : Nat) (s : State) : writeBytes a vs s = s.withRam (writeBytes a vs s).ram := by
  induction vs generalizing a s with
  | nil => rfl
  | cons v vs ih => unfold writeBytes; rw [ih (a + 1) (writeByte a v s)]; rfl

@[simp] theorem writeBytes_hpa (a : Nat) (vs : List Byte) (s : State) : (writeBytes a vs s).hpa = s.hpa := by rw [writeBytes_only]; rfl
@[simp] theorem writeBytes_klr (a : Nat) (vs : List Byte) (s : State) : (writeBytes a vs s).klr = s.klr := by rw [writeBytes_only]; rfl
@[simp] theorem writeBytes_taq (a : Nat) (vs : List Byte) (s : State) : (writeBytes a vs s).taq = s.taq := by rw [writeBytes_only]; rfl
@[simp] theorem writeBytes_lst (a : Nat) (vs : List Byte) (s : State) : (writeBytes a vs s).lst = s.lst := by rw [writeBytes_only]; rfl
@[simp] theorem writeBytes_esc (a : Nat) (vs : List Byte) (s : State) : (writeBytes a vs s).esc = s.esc := by rw [writeBytes_only]; rfl
@[simp] theorem writeBytes_settings (a : Nat) (vs : List Byte) (s : State) : (writeBytes a vs s).settings = s.settings := by rw [writeBytes_only]; rfl
@[simp] theorem writeBytes_pmc (a : Nat) (vs : List Byte) (s : State) : (writeBytes a vs s).pmc = s.pmc := by rw [writeBytes_only]; rfl
@[simp] theorem writeBytes_cmm (a : Nat) (vs : List Byte) (s : State) : (writeBytes a vs s).cmm = s.cmm := by rw [writeBytes_only]; rfl
@[simp] theorem writeBytes_spc (a : Nat) (vs : List Byte) (s : State) : (writeBytes a vs s).spc = s.spc := by rw [writeBytes_only]; rfl
@[simp] theorem writeBytes_dsp (a : Nat) (vs : List Byte) (s : State) : (writeBytes a vs s).dsp = s.dsp := by rw [writeBytes_only]; rfl
@[simp] theorem writeBytes_ntw (a : Nat) (vs : List Byte) (s : State) : (writeBytes a vs s).ntw = s.ntw := by rw [writeBytes_only]; rfl
@[simp] theorem writeBytes_tmb (a : Nat) (vs : List Byte) (s : State) : (writeBytes a vs s).tmb = s.tmb := by rw [writeBytes_only]; rfl
@[simp] theorem writeBytes_pending (a : Nat) (vs : List Byte) (s : State) : (writeBytes a vs s).pending = s.pending := by rw [writeBytes_only]; rfl

end Sys2Proof.Machine
end

