-- ==== Sys2Proof/Laws/FramesLine.lean ====
section
/-! SUPPORT. The frame of each shared operation of the Spelling Checker and the Line Store: one lemma for every block of State that the operation leaves as it was. -/
namespace Sys2Proof.Machine

@[simp] theorem markCells_hpa (ids : List Nat) (m : Mark) (n : Byte) (s : State) : (markCells ids m n s).hpa = s.hpa := rfl
@[simp] theorem markCells_klr (ids : List Nat) (m : Mark) (n : Byte) (s : State) : (markCells ids m n s).klr = s.klr := rfl
@[simp] theorem markCells_taq (ids : List Nat) (m : Mark) (n : Byte) (s : State) : (markCells ids m n s).taq = s.taq := rfl
@[simp] theorem markCells_esc (ids : List Nat) (m : Mark) (n : Byte) (s : State) : (markCells ids m n s).esc = s.esc := rfl
@[simp] theorem markCells_settings (ids : List Nat) (m : Mark) (n : Byte) (s : State) : (markCells ids m n s).settings = s.settings := rfl
@[simp] theorem markCells_pmc (ids : List Nat) (m : Mark) (n : Byte) (s : State) : (markCells ids m n s).pmc = s.pmc := rfl
@[simp] theorem markCells_cmm (ids : List Nat) (m : Mark) (n : Byte) (s : State) : (markCells ids m n s).cmm = s.cmm := rfl
@[simp] theorem markCells_spc (ids : List Nat) (m : Mark) (n : Byte) (s : State) : (markCells ids m n s).spc = s.spc := rfl
@[simp] theorem markCells_dsp (ids : List Nat) (m : Mark) (n : Byte) (s : State) : (markCells ids m n s).dsp = s.dsp := rfl
@[simp] theorem markCells_ntw (ids : List Nat) (m : Mark) (n : Byte) (s : State) : (markCells ids m n s).ntw = s.ntw := rfl
@[simp] theorem markCells_tmb (ids : List Nat) (m : Mark) (n : Byte) (s : State) : (markCells ids m n s).tmb = s.tmb := rfl
@[simp] theorem markCells_ram (ids : List Nat) (m : Mark) (n : Byte) (s : State) : (markCells ids m n s).ram = s.ram := rfl
@[simp] theorem markCells_pending (ids : List Nat) (m : Mark) (n : Byte) (s : State) : (markCells ids m n s).pending = s.pending := rfl

@[simp] theorem setOpenRun_hpa (ids : List Nat) (s : State) : (setOpenRun ids s).hpa = s.hpa := rfl
@[simp] theorem setOpenRun_klr (ids : List Nat) (s : State) : (setOpenRun ids s).klr = s.klr := rfl
@[simp] theorem setOpenRun_taq (ids : List Nat) (s : State) : (setOpenRun ids s).taq = s.taq := rfl
@[simp] theorem setOpenRun_lst (ids : List Nat) (s : State) : (setOpenRun ids s).lst = s.lst := rfl
@[simp] theorem setOpenRun_esc (ids : List Nat) (s : State) : (setOpenRun ids s).esc = s.esc := rfl
@[simp] theorem setOpenRun_settings (ids : List Nat) (s : State) : (setOpenRun ids s).settings = s.settings := rfl
@[simp] theorem setOpenRun_pmc (ids : List Nat) (s : State) : (setOpenRun ids s).pmc = s.pmc := rfl
@[simp] theorem setOpenRun_cmm (ids : List Nat) (s : State) : (setOpenRun ids s).cmm = s.cmm := rfl
@[simp] theorem setOpenRun_dsp (ids : List Nat) (s : State) : (setOpenRun ids s).dsp = s.dsp := rfl
@[simp] theorem setOpenRun_ntw (ids : List Nat) (s : State) : (setOpenRun ids s).ntw = s.ntw := rfl
@[simp] theorem setOpenRun_tmb (ids : List Nat) (s : State) : (setOpenRun ids s).tmb = s.tmb := rfl
@[simp] theorem setOpenRun_ram (ids : List Nat) (s : State) : (setOpenRun ids s).ram = s.ram := rfl
@[simp] theorem setOpenRun_pending (ids : List Nat) (s : State) : (setOpenRun ids s).pending = s.pending := rfl

@[simp] theorem endRun_hpa (run : List Cell) (s : State) : (endRun run s).hpa = s.hpa := by unfold endRun; (try dsimp only); (repeat' split) <;> simp
@[simp] theorem endRun_klr (run : List Cell) (s : State) : (endRun run s).klr = s.klr := by unfold endRun; (try dsimp only); (repeat' split) <;> simp
@[simp] theorem endRun_taq (run : List Cell) (s : State) : (endRun run s).taq = s.taq := by unfold endRun; (try dsimp only); (repeat' split) <;> simp
@[simp] theorem endRun_esc (run : List Cell) (s : State) : (endRun run s).esc = s.esc := by unfold endRun; (try dsimp only); (repeat' split) <;> simp
@[simp] theorem endRun_settings (run : List Cell) (s : State) : (endRun run s).settings = s.settings := by unfold endRun; (try dsimp only); (repeat' split) <;> simp
@[simp] theorem endRun_pmc (run : List Cell) (s : State) : (endRun run s).pmc = s.pmc := by unfold endRun; (try dsimp only); (repeat' split) <;> simp
@[simp] theorem endRun_cmm (run : List Cell) (s : State) : (endRun run s).cmm = s.cmm := by unfold endRun; (try dsimp only); (repeat' split) <;> simp
@[simp] theorem endRun_dsp (run : List Cell) (s : State) : (endRun run s).dsp = s.dsp := by unfold endRun; (try dsimp only); (repeat' split) <;> simp
@[simp] theorem endRun_ntw (run : List Cell) (s : State) : (endRun run s).ntw = s.ntw := by unfold endRun; (try dsimp only); (repeat' split) <;> simp
@[simp] theorem endRun_tmb (run : List Cell) (s : State) : (endRun run s).tmb = s.tmb := by unfold endRun; (try dsimp only); (repeat' split) <;> simp
@[simp] theorem endRun_ram (run : List Cell) (s : State) : (endRun run s).ram = s.ram := by unfold endRun; (try dsimp only); (repeat' split) <;> simp
@[simp] theorem endRun_pending (run : List Cell) (s : State) : (endRun run s).pending = s.pending := by unfold endRun; (try dsimp only); (repeat' split) <;> simp

@[simp] theorem endOpenRun_hpa (s : State) : (endOpenRun s).hpa = s.hpa := by unfold endOpenRun; (try dsimp only); (repeat' split) <;> simp
@[simp] theorem endOpenRun_klr (s : State) : (endOpenRun s).klr = s.klr := by unfold endOpenRun; (try dsimp only); (repeat' split) <;> simp
@[simp] theorem endOpenRun_taq (s : State) : (endOpenRun s).taq = s.taq := by unfold endOpenRun; (try dsimp only); (repeat' split) <;> simp
@[simp] theorem endOpenRun_esc (s : State) : (endOpenRun s).esc = s.esc := by unfold endOpenRun; (try dsimp only); (repeat' split) <;> simp
@[simp] theorem endOpenRun_settings (s : State) : (endOpenRun s).settings = s.settings := by unfold endOpenRun; (try dsimp only); (repeat' split) <;> simp
@[simp] theorem endOpenRun_pmc (s : State) : (endOpenRun s).pmc = s.pmc := by unfold endOpenRun; (try dsimp only); (repeat' split) <;> simp
@[simp] theorem endOpenRun_cmm (s : State) : (endOpenRun s).cmm = s.cmm := by unfold endOpenRun; (try dsimp only); (repeat' split) <;> simp
@[simp] theorem endOpenRun_dsp (s : State) : (endOpenRun s).dsp = s.dsp := by unfold endOpenRun; (try dsimp only); (repeat' split) <;> simp
@[simp] theorem endOpenRun_ntw (s : State) : (endOpenRun s).ntw = s.ntw := by unfold endOpenRun; (try dsimp only); (repeat' split) <;> simp
@[simp] theorem endOpenRun_tmb (s : State) : (endOpenRun s).tmb = s.tmb := by unfold endOpenRun; (try dsimp only); (repeat' split) <;> simp
@[simp] theorem endOpenRun_ram (s : State) : (endOpenRun s).ram = s.ram := by unfold endOpenRun; (try dsimp only); (repeat' split) <;> simp
@[simp] theorem endOpenRun_pending (s : State) : (endOpenRun s).pending = s.pending := by unfold endOpenRun; (try dsimp only); (repeat' split) <;> simp

@[simp] theorem withdraw_hpa (n : Byte) (s : State) : (withdraw n s).hpa = s.hpa := rfl
@[simp] theorem withdraw_klr (n : Byte) (s : State) : (withdraw n s).klr = s.klr := rfl
@[simp] theorem withdraw_taq (n : Byte) (s : State) : (withdraw n s).taq = s.taq := rfl
@[simp] theorem withdraw_esc (n : Byte) (s : State) : (withdraw n s).esc = s.esc := rfl
@[simp] theorem withdraw_settings (n : Byte) (s : State) : (withdraw n s).settings = s.settings := rfl
@[simp] theorem withdraw_pmc (n : Byte) (s : State) : (withdraw n s).pmc = s.pmc := rfl
@[simp] theorem withdraw_cmm (n : Byte) (s : State) : (withdraw n s).cmm = s.cmm := rfl
@[simp] theorem withdraw_dsp (n : Byte) (s : State) : (withdraw n s).dsp = s.dsp := rfl
@[simp] theorem withdraw_ntw (n : Byte) (s : State) : (withdraw n s).ntw = s.ntw := rfl
@[simp] theorem withdraw_tmb (n : Byte) (s : State) : (withdraw n s).tmb = s.tmb := rfl
@[simp] theorem withdraw_ram (n : Byte) (s : State) : (withdraw n s).ram = s.ram := rfl
@[simp] theorem withdraw_pending (n : Byte) (s : State) : (withdraw n s).pending = s.pending := rfl

/-- What a withdrawal leaves alone, a withdrawal of several words leaves alone. -/
theorem withdrawAll_frame {β : Type} (view : State → β) (h : ∀ n t, view (withdraw n t) = view t) (cs : List Cell)
    (s : State) : view (withdrawAll cs s) = view s := by
  unfold withdrawAll
  induction cs generalizing s with
  | nil => rfl
  | cons c cs ih =>
    rw [List.foldl_cons, ih]
    split
    · rfl
    · exact h _ _

@[simp] theorem withdrawAll_hpa (cs : List Cell) (s : State) : (withdrawAll cs s).hpa = s.hpa := withdrawAll_frame (fun t => t.hpa) (fun _ _ => rfl) cs s
@[simp] theorem withdrawAll_klr (cs : List Cell) (s : State) : (withdrawAll cs s).klr = s.klr := withdrawAll_frame (fun t => t.klr) (fun _ _ => rfl) cs s
@[simp] theorem withdrawAll_taq (cs : List Cell) (s : State) : (withdrawAll cs s).taq = s.taq := withdrawAll_frame (fun t => t.taq) (fun _ _ => rfl) cs s
@[simp] theorem withdrawAll_esc (cs : List Cell) (s : State) : (withdrawAll cs s).esc = s.esc := withdrawAll_frame (fun t => t.esc) (fun _ _ => rfl) cs s
@[simp] theorem withdrawAll_settings (cs : List Cell) (s : State) : (withdrawAll cs s).settings = s.settings := withdrawAll_frame (fun t => t.settings) (fun _ _ => rfl) cs s
@[simp] theorem withdrawAll_pmc (cs : List Cell) (s : State) : (withdrawAll cs s).pmc = s.pmc := withdrawAll_frame (fun t => t.pmc) (fun _ _ => rfl) cs s
@[simp] theorem withdrawAll_cmm (cs : List Cell) (s : State) : (withdrawAll cs s).cmm = s.cmm := withdrawAll_frame (fun t => t.cmm) (fun _ _ => rfl) cs s
@[simp] theorem withdrawAll_dsp (cs : List Cell) (s : State) : (withdrawAll cs s).dsp = s.dsp := withdrawAll_frame (fun t => t.dsp) (fun _ _ => rfl) cs s
@[simp] theorem withdrawAll_ntw (cs : List Cell) (s : State) : (withdrawAll cs s).ntw = s.ntw := withdrawAll_frame (fun t => t.ntw) (fun _ _ => rfl) cs s
@[simp] theorem withdrawAll_tmb (cs : List Cell) (s : State) : (withdrawAll cs s).tmb = s.tmb := withdrawAll_frame (fun t => t.tmb) (fun _ _ => rfl) cs s
@[simp] theorem withdrawAll_ram (cs : List Cell) (s : State) : (withdrawAll cs s).ram = s.ram := withdrawAll_frame (fun t => t.ram) (fun _ _ => rfl) cs s
@[simp] theorem withdrawAll_pending (cs : List Cell) (s : State) : (withdrawAll cs s).pending = s.pending := withdrawAll_frame (fun t => t.pending) (fun _ _ => rfl) cs s

@[simp] theorem reportMade_hpa (c : Cell) (s : State) : (reportMade c s).hpa = s.hpa := by unfold reportMade; (try dsimp only); (repeat' split) <;> simp
@[simp] theorem reportMade_klr (c : Cell) (s : State) : (reportMade c s).klr = s.klr := by unfold reportMade; (try dsimp only); (repeat' split) <;> simp
@[simp] theorem reportMade_taq (c : Cell) (s : State) : (reportMade c s).taq = s.taq := by unfold reportMade; (try dsimp only); (repeat' split) <;> simp
@[simp] theorem reportMade_esc (c : Cell) (s : State) : (reportMade c s).esc = s.esc := by unfold reportMade; (try dsimp only); (repeat' split) <;> simp
@[simp] theorem reportMade_settings (c : Cell) (s : State) : (reportMade c s).settings = s.settings := by unfold reportMade; (try dsimp only); (repeat' split) <;> simp
@[simp] theorem reportMade_pmc (c : Cell) (s : State) : (reportMade c s).pmc = s.pmc := by unfold reportMade; (try dsimp only); (repeat' split) <;> simp
@[simp] theorem reportMade_cmm (c : Cell) (s : State) : (reportMade c s).cmm = s.cmm := by unfold reportMade; (try dsimp only); (repeat' split) <;> simp
@[simp] theorem reportMade_dsp (c : Cell) (s : State) : (reportMade c s).dsp = s.dsp := by unfold reportMade; (try dsimp only); (repeat' split) <;> simp
@[simp] theorem reportMade_ntw (c : Cell) (s : State) : (reportMade c s).ntw = s.ntw := by unfold reportMade; (try dsimp only); (repeat' split) <;> simp
@[simp] theorem reportMade_tmb (c : Cell) (s : State) : (reportMade c s).tmb = s.tmb := by unfold reportMade; (try dsimp only); (repeat' split) <;> simp
@[simp] theorem reportMade_ram (c : Cell) (s : State) : (reportMade c s).ram = s.ram := by unfold reportMade; (try dsimp only); (repeat' split) <;> simp
@[simp] theorem reportMade_pending (c : Cell) (s : State) : (reportMade c s).pending = s.pending := by unfold reportMade; (try dsimp only); (repeat' split) <;> simp

@[simp] theorem reportErased_hpa (c : Cell) (s : State) : (reportErased c s).hpa = s.hpa := by unfold reportErased; (try dsimp only); (repeat' split) <;> simp
@[simp] theorem reportErased_klr (c : Cell) (s : State) : (reportErased c s).klr = s.klr := by unfold reportErased; (try dsimp only); (repeat' split) <;> simp
@[simp] theorem reportErased_taq (c : Cell) (s : State) : (reportErased c s).taq = s.taq := by unfold reportErased; (try dsimp only); (repeat' split) <;> simp
@[simp] theorem reportErased_esc (c : Cell) (s : State) : (reportErased c s).esc = s.esc := by unfold reportErased; (try dsimp only); (repeat' split) <;> simp
@[simp] theorem reportErased_settings (c : Cell) (s : State) : (reportErased c s).settings = s.settings := by unfold reportErased; (try dsimp only); (repeat' split) <;> simp
@[simp] theorem reportErased_pmc (c : Cell) (s : State) : (reportErased c s).pmc = s.pmc := by unfold reportErased; (try dsimp only); (repeat' split) <;> simp
@[simp] theorem reportErased_cmm (c : Cell) (s : State) : (reportErased c s).cmm = s.cmm := by unfold reportErased; (try dsimp only); (repeat' split) <;> simp
@[simp] theorem reportErased_dsp (c : Cell) (s : State) : (reportErased c s).dsp = s.dsp := by unfold reportErased; (try dsimp only); (repeat' split) <;> simp
@[simp] theorem reportErased_ntw (c : Cell) (s : State) : (reportErased c s).ntw = s.ntw := by unfold reportErased; (try dsimp only); (repeat' split) <;> simp
@[simp] theorem reportErased_tmb (c : Cell) (s : State) : (reportErased c s).tmb = s.tmb := by unfold reportErased; (try dsimp only); (repeat' split) <;> simp
@[simp] theorem reportErased_ram (c : Cell) (s : State) : (reportErased c s).ram = s.ram := by unfold reportErased; (try dsimp only); (repeat' split) <;> simp
@[simp] theorem reportErased_pending (c : Cell) (s : State) : (reportErased c s).pending = s.pending := by unfold reportErased; (try dsimp only); (repeat' split) <;> simp

@[simp] theorem reportInserted_hpa (k : Nat) (c : Cell) (s : State) : (reportInserted k c s).hpa = s.hpa := by unfold reportInserted; (try dsimp only); (repeat' split) <;> simp
@[simp] theorem reportInserted_klr (k : Nat) (c : Cell) (s : State) : (reportInserted k c s).klr = s.klr := by unfold reportInserted; (try dsimp only); (repeat' split) <;> simp
@[simp] theorem reportInserted_taq (k : Nat) (c : Cell) (s : State) : (reportInserted k c s).taq = s.taq := by unfold reportInserted; (try dsimp only); (repeat' split) <;> simp
@[simp] theorem reportInserted_esc (k : Nat) (c : Cell) (s : State) : (reportInserted k c s).esc = s.esc := by unfold reportInserted; (try dsimp only); (repeat' split) <;> simp
@[simp] theorem reportInserted_settings (k : Nat) (c : Cell) (s : State) : (reportInserted k c s).settings = s.settings := by unfold reportInserted; (try dsimp only); (repeat' split) <;> simp
@[simp] theorem reportInserted_pmc (k : Nat) (c : Cell) (s : State) : (reportInserted k c s).pmc = s.pmc := by unfold reportInserted; (try dsimp only); (repeat' split) <;> simp
@[simp] theorem reportInserted_cmm (k : Nat) (c : Cell) (s : State) : (reportInserted k c s).cmm = s.cmm := by unfold reportInserted; (try dsimp only); (repeat' split) <;> simp
@[simp] theorem reportInserted_dsp (k : Nat) (c : Cell) (s : State) : (reportInserted k c s).dsp = s.dsp := by unfold reportInserted; (try dsimp only); (repeat' split) <;> simp
@[simp] theorem reportInserted_ntw (k : Nat) (c : Cell) (s : State) : (reportInserted k c s).ntw = s.ntw := by unfold reportInserted; (try dsimp only); (repeat' split) <;> simp
@[simp] theorem reportInserted_tmb (k : Nat) (c : Cell) (s : State) : (reportInserted k c s).tmb = s.tmb := by unfold reportInserted; (try dsimp only); (repeat' split) <;> simp
@[simp] theorem reportInserted_ram (k : Nat) (c : Cell) (s : State) : (reportInserted k c s).ram = s.ram := by unfold reportInserted; (try dsimp only); (repeat' split) <;> simp
@[simp] theorem reportInserted_pending (k : Nat) (c : Cell) (s : State) : (reportInserted k c s).pending = s.pending := by unfold reportInserted; (try dsimp only); (repeat' split) <;> simp

@[simp] theorem reportRemoved_hpa (k : Nat) (c : Cell) (s : State) : (reportRemoved k c s).hpa = s.hpa := by unfold reportRemoved; (try dsimp only); (repeat' split) <;> simp
@[simp] theorem reportRemoved_klr (k : Nat) (c : Cell) (s : State) : (reportRemoved k c s).klr = s.klr := by unfold reportRemoved; (try dsimp only); (repeat' split) <;> simp
@[simp] theorem reportRemoved_taq (k : Nat) (c : Cell) (s : State) : (reportRemoved k c s).taq = s.taq := by unfold reportRemoved; (try dsimp only); (repeat' split) <;> simp
@[simp] theorem reportRemoved_esc (k : Nat) (c : Cell) (s : State) : (reportRemoved k c s).esc = s.esc := by unfold reportRemoved; (try dsimp only); (repeat' split) <;> simp
@[simp] theorem reportRemoved_settings (k : Nat) (c : Cell) (s : State) : (reportRemoved k c s).settings = s.settings := by unfold reportRemoved; (try dsimp only); (repeat' split) <;> simp
@[simp] theorem reportRemoved_pmc (k : Nat) (c : Cell) (s : State) : (reportRemoved k c s).pmc = s.pmc := by unfold reportRemoved; (try dsimp only); (repeat' split) <;> simp
@[simp] theorem reportRemoved_cmm (k : Nat) (c : Cell) (s : State) : (reportRemoved k c s).cmm = s.cmm := by unfold reportRemoved; (try dsimp only); (repeat' split) <;> simp
@[simp] theorem reportRemoved_dsp (k : Nat) (c : Cell) (s : State) : (reportRemoved k c s).dsp = s.dsp := by unfold reportRemoved; (try dsimp only); (repeat' split) <;> simp
@[simp] theorem reportRemoved_ntw (k : Nat) (c : Cell) (s : State) : (reportRemoved k c s).ntw = s.ntw := by unfold reportRemoved; (try dsimp only); (repeat' split) <;> simp
@[simp] theorem reportRemoved_tmb (k : Nat) (c : Cell) (s : State) : (reportRemoved k c s).tmb = s.tmb := by unfold reportRemoved; (try dsimp only); (repeat' split) <;> simp
@[simp] theorem reportRemoved_ram (k : Nat) (c : Cell) (s : State) : (reportRemoved k c s).ram = s.ram := by unfold reportRemoved; (try dsimp only); (repeat' split) <;> simp
@[simp] theorem reportRemoved_pending (k : Nat) (c : Cell) (s : State) : (reportRemoved k c s).pending = s.pending := by unfold reportRemoved; (try dsimp only); (repeat' split) <;> simp

/-- What the ending of a run leaves alone, the ending of several runs leaves alone. -/
theorem endRuns_frame {β : Type} (view : State → β) (h : ∀ r t, view (endRun r t) = view t) (rs : List (List Cell))
    (s : State) : view (rs.foldl (fun t r => endRun r t) s) = view s := by
  induction rs generalizing s with
  | nil => rfl
  | cons r rs ih => rw [List.foldl_cons, ih]; exact h _ _

@[simp] theorem endRuns_hpa (rs : List (List Cell)) (s : State) : (rs.foldl (fun t r => endRun r t) s).hpa = s.hpa := endRuns_frame (fun t => t.hpa) (fun _ _ => endRun_hpa _ _) rs s
@[simp] theorem endRuns_klr (rs : List (List Cell)) (s : State) : (rs.foldl (fun t r => endRun r t) s).klr = s.klr := endRuns_frame (fun t => t.klr) (fun _ _ => endRun_klr _ _) rs s
@[simp] theorem endRuns_taq (rs : List (List Cell)) (s : State) : (rs.foldl (fun t r => endRun r t) s).taq = s.taq := endRuns_frame (fun t => t.taq) (fun _ _ => endRun_taq _ _) rs s
@[simp] theorem endRuns_esc (rs : List (List Cell)) (s : State) : (rs.foldl (fun t r => endRun r t) s).esc = s.esc := endRuns_frame (fun t => t.esc) (fun _ _ => endRun_esc _ _) rs s
@[simp] theorem endRuns_settings (rs : List (List Cell)) (s : State) : (rs.foldl (fun t r => endRun r t) s).settings = s.settings := endRuns_frame (fun t => t.settings) (fun _ _ => endRun_settings _ _) rs s
@[simp] theorem endRuns_pmc (rs : List (List Cell)) (s : State) : (rs.foldl (fun t r => endRun r t) s).pmc = s.pmc := endRuns_frame (fun t => t.pmc) (fun _ _ => endRun_pmc _ _) rs s
@[simp] theorem endRuns_cmm (rs : List (List Cell)) (s : State) : (rs.foldl (fun t r => endRun r t) s).cmm = s.cmm := endRuns_frame (fun t => t.cmm) (fun _ _ => endRun_cmm _ _) rs s
@[simp] theorem endRuns_dsp (rs : List (List Cell)) (s : State) : (rs.foldl (fun t r => endRun r t) s).dsp = s.dsp := endRuns_frame (fun t => t.dsp) (fun _ _ => endRun_dsp _ _) rs s
@[simp] theorem endRuns_ntw (rs : List (List Cell)) (s : State) : (rs.foldl (fun t r => endRun r t) s).ntw = s.ntw := endRuns_frame (fun t => t.ntw) (fun _ _ => endRun_ntw _ _) rs s
@[simp] theorem endRuns_tmb (rs : List (List Cell)) (s : State) : (rs.foldl (fun t r => endRun r t) s).tmb = s.tmb := endRuns_frame (fun t => t.tmb) (fun _ _ => endRun_tmb _ _) rs s
@[simp] theorem endRuns_ram (rs : List (List Cell)) (s : State) : (rs.foldl (fun t r => endRun r t) s).ram = s.ram := endRuns_frame (fun t => t.ram) (fun _ _ => endRun_ram _ _) rs s
@[simp] theorem endRuns_pending (rs : List (List Cell)) (s : State) : (rs.foldl (fun t r => endRun r t) s).pending = s.pending := endRuns_frame (fun t => t.pending) (fun _ _ => endRun_pending _ _) rs s

@[simp] theorem endLineRuns_hpa (s : State) : (endLineRuns s).hpa = s.hpa := by unfold endLineRuns; (try dsimp only); (repeat' split) <;> simp
@[simp] theorem endLineRuns_klr (s : State) : (endLineRuns s).klr = s.klr := by unfold endLineRuns; (try dsimp only); (repeat' split) <;> simp
@[simp] theorem endLineRuns_taq (s : State) : (endLineRuns s).taq = s.taq := by unfold endLineRuns; (try dsimp only); (repeat' split) <;> simp
@[simp] theorem endLineRuns_esc (s : State) : (endLineRuns s).esc = s.esc := by unfold endLineRuns; (try dsimp only); (repeat' split) <;> simp
@[simp] theorem endLineRuns_settings (s : State) : (endLineRuns s).settings = s.settings := by unfold endLineRuns; (try dsimp only); (repeat' split) <;> simp
@[simp] theorem endLineRuns_pmc (s : State) : (endLineRuns s).pmc = s.pmc := by unfold endLineRuns; (try dsimp only); (repeat' split) <;> simp
@[simp] theorem endLineRuns_cmm (s : State) : (endLineRuns s).cmm = s.cmm := by unfold endLineRuns; (try dsimp only); (repeat' split) <;> simp
@[simp] theorem endLineRuns_dsp (s : State) : (endLineRuns s).dsp = s.dsp := by unfold endLineRuns; (try dsimp only); (repeat' split) <;> simp
@[simp] theorem endLineRuns_ntw (s : State) : (endLineRuns s).ntw = s.ntw := by unfold endLineRuns; (try dsimp only); (repeat' split) <;> simp
@[simp] theorem endLineRuns_tmb (s : State) : (endLineRuns s).tmb = s.tmb := by unfold endLineRuns; (try dsimp only); (repeat' split) <;> simp
@[simp] theorem endLineRuns_ram (s : State) : (endLineRuns s).ram = s.ram := by unfold endLineRuns; (try dsimp only); (repeat' split) <;> simp
@[simp] theorem endLineRuns_pending (s : State) : (endLineRuns s).pending = s.pending := by unfold endLineRuns; (try dsimp only); (repeat' split) <;> simp

@[simp] theorem endRunsLeavingLine_hpa (s : State) : (endRunsLeavingLine s).hpa = s.hpa := by unfold endRunsLeavingLine; (try dsimp only); (repeat' split) <;> simp
@[simp] theorem endRunsLeavingLine_klr (s : State) : (endRunsLeavingLine s).klr = s.klr := by unfold endRunsLeavingLine; (try dsimp only); (repeat' split) <;> simp
@[simp] theorem endRunsLeavingLine_taq (s : State) : (endRunsLeavingLine s).taq = s.taq := by unfold endRunsLeavingLine; (try dsimp only); (repeat' split) <;> simp
@[simp] theorem endRunsLeavingLine_esc (s : State) : (endRunsLeavingLine s).esc = s.esc := by unfold endRunsLeavingLine; (try dsimp only); (repeat' split) <;> simp
@[simp] theorem endRunsLeavingLine_settings (s : State) : (endRunsLeavingLine s).settings = s.settings := by unfold endRunsLeavingLine; (try dsimp only); (repeat' split) <;> simp
@[simp] theorem endRunsLeavingLine_pmc (s : State) : (endRunsLeavingLine s).pmc = s.pmc := by unfold endRunsLeavingLine; (try dsimp only); (repeat' split) <;> simp
@[simp] theorem endRunsLeavingLine_cmm (s : State) : (endRunsLeavingLine s).cmm = s.cmm := by unfold endRunsLeavingLine; (try dsimp only); (repeat' split) <;> simp
@[simp] theorem endRunsLeavingLine_dsp (s : State) : (endRunsLeavingLine s).dsp = s.dsp := by unfold endRunsLeavingLine; (try dsimp only); (repeat' split) <;> simp
@[simp] theorem endRunsLeavingLine_ntw (s : State) : (endRunsLeavingLine s).ntw = s.ntw := by unfold endRunsLeavingLine; (try dsimp only); (repeat' split) <;> simp
@[simp] theorem endRunsLeavingLine_tmb (s : State) : (endRunsLeavingLine s).tmb = s.tmb := by unfold endRunsLeavingLine; (try dsimp only); (repeat' split) <;> simp
@[simp] theorem endRunsLeavingLine_ram (s : State) : (endRunsLeavingLine s).ram = s.ram := by unfold endRunsLeavingLine; (try dsimp only); (repeat' split) <;> simp
@[simp] theorem endRunsLeavingLine_pending (s : State) : (endRunsLeavingLine s).pending = s.pending := by unfold endRunsLeavingLine; (try dsimp only); (repeat' split) <;> simp

@[simp] theorem spellingChanged_hpa (b : Bool) (s : State) : (spellingChanged b s).hpa = s.hpa := by unfold spellingChanged; (try dsimp only); (repeat' split) <;> simp
@[simp] theorem spellingChanged_klr (b : Bool) (s : State) : (spellingChanged b s).klr = s.klr := by unfold spellingChanged; (try dsimp only); (repeat' split) <;> simp
@[simp] theorem spellingChanged_taq (b : Bool) (s : State) : (spellingChanged b s).taq = s.taq := by unfold spellingChanged; (try dsimp only); (repeat' split) <;> simp
@[simp] theorem spellingChanged_lst (b : Bool) (s : State) : (spellingChanged b s).lst = s.lst := by unfold spellingChanged; (try dsimp only); (repeat' split) <;> simp
@[simp] theorem spellingChanged_esc (b : Bool) (s : State) : (spellingChanged b s).esc = s.esc := by unfold spellingChanged; (try dsimp only); (repeat' split) <;> simp
@[simp] theorem spellingChanged_settings (b : Bool) (s : State) : (spellingChanged b s).settings = s.settings := by unfold spellingChanged; (try dsimp only); (repeat' split) <;> simp
@[simp] theorem spellingChanged_pmc (b : Bool) (s : State) : (spellingChanged b s).pmc = s.pmc := by unfold spellingChanged; (try dsimp only); (repeat' split) <;> simp
@[simp] theorem spellingChanged_cmm (b : Bool) (s : State) : (spellingChanged b s).cmm = s.cmm := by unfold spellingChanged; (try dsimp only); (repeat' split) <;> simp
@[simp] theorem spellingChanged_dsp (b : Bool) (s : State) : (spellingChanged b s).dsp = s.dsp := by unfold spellingChanged; (try dsimp only); (repeat' split) <;> simp
@[simp] theorem spellingChanged_ntw (b : Bool) (s : State) : (spellingChanged b s).ntw = s.ntw := by unfold spellingChanged; (try dsimp only); (repeat' split) <;> simp
@[simp] theorem spellingChanged_tmb (b : Bool) (s : State) : (spellingChanged b s).tmb = s.tmb := by unfold spellingChanged; (try dsimp only); (repeat' split) <;> simp
@[simp] theorem spellingChanged_ram (b : Bool) (s : State) : (spellingChanged b s).ram = s.ram := by unfold spellingChanged; (try dsimp only); (repeat' split) <;> simp
@[simp] theorem spellingChanged_pending (b : Bool) (s : State) : (spellingChanged b s).pending = s.pending := by unfold spellingChanged; (try dsimp only); (repeat' split) <;> simp

@[simp] theorem reportClosing_hpa (s : State) : (reportClosing s).hpa = s.hpa := by unfold reportClosing; (try dsimp only); (repeat' split) <;> simp
@[simp] theorem reportClosing_klr (s : State) : (reportClosing s).klr = s.klr := by unfold reportClosing; (try dsimp only); (repeat' split) <;> simp
@[simp] theorem reportClosing_taq (s : State) : (reportClosing s).taq = s.taq := by unfold reportClosing; (try dsimp only); (repeat' split) <;> simp
@[simp] theorem reportClosing_esc (s : State) : (reportClosing s).esc = s.esc := by unfold reportClosing; (try dsimp only); (repeat' split) <;> simp
@[simp] theorem reportClosing_settings (s : State) : (reportClosing s).settings = s.settings := by unfold reportClosing; (try dsimp only); (repeat' split) <;> simp
@[simp] theorem reportClosing_pmc (s : State) : (reportClosing s).pmc = s.pmc := by unfold reportClosing; (try dsimp only); (repeat' split) <;> simp
@[simp] theorem reportClosing_cmm (s : State) : (reportClosing s).cmm = s.cmm := by unfold reportClosing; (try dsimp only); (repeat' split) <;> simp
@[simp] theorem reportClosing_dsp (s : State) : (reportClosing s).dsp = s.dsp := by unfold reportClosing; (try dsimp only); (repeat' split) <;> simp
@[simp] theorem reportClosing_ntw (s : State) : (reportClosing s).ntw = s.ntw := by unfold reportClosing; (try dsimp only); (repeat' split) <;> simp
@[simp] theorem reportClosing_tmb (s : State) : (reportClosing s).tmb = s.tmb := by unfold reportClosing; (try dsimp only); (repeat' split) <;> simp
@[simp] theorem reportClosing_ram (s : State) : (reportClosing s).ram = s.ram := by unfold reportClosing; (try dsimp only); (repeat' split) <;> simp
@[simp] theorem reportClosing_pending (s : State) : (reportClosing s).pending = s.pending := by unfold reportClosing; (try dsimp only); (repeat' split) <;> simp

@[simp] theorem writeSlot_hpa (l : Half) (i : Nat) (folds : List Nat) (s : State) : (writeSlot l i folds s).hpa = s.hpa := by unfold writeSlot; (try dsimp only); (repeat' split) <;> simp
@[simp] theorem writeSlot_klr (l : Half) (i : Nat) (folds : List Nat) (s : State) : (writeSlot l i folds s).klr = s.klr := by unfold writeSlot; (try dsimp only); (repeat' split) <;> simp
@[simp] theorem writeSlot_taq (l : Half) (i : Nat) (folds : List Nat) (s : State) : (writeSlot l i folds s).taq = s.taq := by unfold writeSlot; (try dsimp only); (repeat' split) <;> simp
@[simp] theorem writeSlot_lst (l : Half) (i : Nat) (folds : List Nat) (s : State) : (writeSlot l i folds s).lst = s.lst := by unfold writeSlot; (try dsimp only); (repeat' split) <;> simp
@[simp] theorem writeSlot_esc (l : Half) (i : Nat) (folds : List Nat) (s : State) : (writeSlot l i folds s).esc = s.esc := by unfold writeSlot; (try dsimp only); (repeat' split) <;> simp
@[simp] theorem writeSlot_settings (l : Half) (i : Nat) (folds : List Nat) (s : State) : (writeSlot l i folds s).settings = s.settings := by unfold writeSlot; (try dsimp only); (repeat' split) <;> simp
@[simp] theorem writeSlot_pmc (l : Half) (i : Nat) (folds : List Nat) (s : State) : (writeSlot l i folds s).pmc = s.pmc := by unfold writeSlot; (try dsimp only); (repeat' split) <;> simp
@[simp] theorem writeSlot_cmm (l : Half) (i : Nat) (folds : List Nat) (s : State) : (writeSlot l i folds s).cmm = s.cmm := by unfold writeSlot; (try dsimp only); (repeat' split) <;> simp
@[simp] theorem writeSlot_spc (l : Half) (i : Nat) (folds : List Nat) (s : State) : (writeSlot l i folds s).spc = s.spc := by unfold writeSlot; (try dsimp only); (repeat' split) <;> simp
@[simp] theorem writeSlot_dsp (l : Half) (i : Nat) (folds : List Nat) (s : State) : (writeSlot l i folds s).dsp = s.dsp := by unfold writeSlot; (try dsimp only); (repeat' split) <;> simp
@[simp] theorem writeSlot_ntw (l : Half) (i : Nat) (folds : List Nat) (s : State) : (writeSlot l i folds s).ntw = s.ntw := by unfold writeSlot; (try dsimp only); (repeat' split) <;> simp
@[simp] theorem writeSlot_tmb (l : Half) (i : Nat) (folds : List Nat) (s : State) : (writeSlot l i folds s).tmb = s.tmb := by unfold writeSlot; (try dsimp only); (repeat' split) <;> simp
@[simp] theorem writeSlot_pending (l : Half) (i : Nat) (folds : List Nat) (s : State) : (writeSlot l i folds s).pending = s.pending := by unfold writeSlot; (try dsimp only); (repeat' split) <;> simp

@[simp] theorem remarkGood_hpa (folds : List Nat) (s : State) : (remarkGood folds s).hpa = s.hpa := rfl
@[simp] theorem remarkGood_klr (folds : List Nat) (s : State) : (remarkGood folds s).klr = s.klr := rfl
@[simp] theorem remarkGood_taq (folds : List Nat) (s : State) : (remarkGood folds s).taq = s.taq := rfl
@[simp] theorem remarkGood_esc (folds : List Nat) (s : State) : (remarkGood folds s).esc = s.esc := rfl
@[simp] theorem remarkGood_settings (folds : List Nat) (s : State) : (remarkGood folds s).settings = s.settings := rfl
@[simp] theorem remarkGood_pmc (folds : List Nat) (s : State) : (remarkGood folds s).pmc = s.pmc := rfl
@[simp] theorem remarkGood_cmm (folds : List Nat) (s : State) : (remarkGood folds s).cmm = s.cmm := rfl
@[simp] theorem remarkGood_spc (folds : List Nat) (s : State) : (remarkGood folds s).spc = s.spc := rfl
@[simp] theorem remarkGood_dsp (folds : List Nat) (s : State) : (remarkGood folds s).dsp = s.dsp := rfl
@[simp] theorem remarkGood_ntw (folds : List Nat) (s : State) : (remarkGood folds s).ntw = s.ntw := rfl
@[simp] theorem remarkGood_tmb (folds : List Nat) (s : State) : (remarkGood folds s).tmb = s.tmb := rfl
@[simp] theorem remarkGood_ram (folds : List Nat) (s : State) : (remarkGood folds s).ram = s.ram := rfl
@[simp] theorem remarkGood_pending (folds : List Nat) (s : State) : (remarkGood folds s).pending = s.pending := rfl

@[simp] theorem writeVerdict_hpa (n : Byte) (m : Mark) (s : State) : (writeVerdict n m s).hpa = s.hpa := rfl
@[simp] theorem writeVerdict_klr (n : Byte) (m : Mark) (s : State) : (writeVerdict n m s).klr = s.klr := rfl
@[simp] theorem writeVerdict_taq (n : Byte) (m : Mark) (s : State) : (writeVerdict n m s).taq = s.taq := rfl
@[simp] theorem writeVerdict_esc (n : Byte) (m : Mark) (s : State) : (writeVerdict n m s).esc = s.esc := rfl
@[simp] theorem writeVerdict_settings (n : Byte) (m : Mark) (s : State) : (writeVerdict n m s).settings = s.settings := rfl
@[simp] theorem writeVerdict_pmc (n : Byte) (m : Mark) (s : State) : (writeVerdict n m s).pmc = s.pmc := rfl
@[simp] theorem writeVerdict_cmm (n : Byte) (m : Mark) (s : State) : (writeVerdict n m s).cmm = s.cmm := rfl
@[simp] theorem writeVerdict_spc (n : Byte) (m : Mark) (s : State) : (writeVerdict n m s).spc = s.spc := rfl
@[simp] theorem writeVerdict_dsp (n : Byte) (m : Mark) (s : State) : (writeVerdict n m s).dsp = s.dsp := rfl
@[simp] theorem writeVerdict_ntw (n : Byte) (m : Mark) (s : State) : (writeVerdict n m s).ntw = s.ntw := rfl
@[simp] theorem writeVerdict_tmb (n : Byte) (m : Mark) (s : State) : (writeVerdict n m s).tmb = s.tmb := rfl
@[simp] theorem writeVerdict_ram (n : Byte) (m : Mark) (s : State) : (writeVerdict n m s).ram = s.ram := rfl
@[simp] theorem writeVerdict_pending (n : Byte) (m : Mark) (s : State) : (writeVerdict n m s).pending = s.pending := rfl

@[simp] theorem reportMiss_hpa (w : CheckWord) (s : State) : (reportMiss w s).hpa = s.hpa := by unfold reportMiss; (try dsimp only); (repeat' split) <;> simp
@[simp] theorem reportMiss_klr (w : CheckWord) (s : State) : (reportMiss w s).klr = s.klr := by unfold reportMiss; (try dsimp only); (repeat' split) <;> simp
@[simp] theorem reportMiss_taq (w : CheckWord) (s : State) : (reportMiss w s).taq = s.taq := by unfold reportMiss; (try dsimp only); (repeat' split) <;> simp
@[simp] theorem reportMiss_lst (w : CheckWord) (s : State) : (reportMiss w s).lst = s.lst := by unfold reportMiss; (try dsimp only); (repeat' split) <;> simp
@[simp] theorem reportMiss_esc (w : CheckWord) (s : State) : (reportMiss w s).esc = s.esc := by unfold reportMiss; (try dsimp only); (repeat' split) <;> simp
@[simp] theorem reportMiss_settings (w : CheckWord) (s : State) : (reportMiss w s).settings = s.settings := by unfold reportMiss; (try dsimp only); (repeat' split) <;> simp
@[simp] theorem reportMiss_pmc (w : CheckWord) (s : State) : (reportMiss w s).pmc = s.pmc := by unfold reportMiss; (try dsimp only); (repeat' split) <;> simp
@[simp] theorem reportMiss_cmm (w : CheckWord) (s : State) : (reportMiss w s).cmm = s.cmm := by unfold reportMiss; (try dsimp only); (repeat' split) <;> simp
@[simp] theorem reportMiss_ram (w : CheckWord) (s : State) : (reportMiss w s).ram = s.ram := by unfold reportMiss; (try dsimp only); (repeat' split) <;> simp
@[simp] theorem reportMiss_pending (w : CheckWord) (s : State) : (reportMiss w s).pending = s.pending := by unfold reportMiss; (try dsimp only); (repeat' split) <;> simp

@[simp] theorem deliver_hpa (f : Flight) (s : State) : (deliver f s).hpa = s.hpa := by unfold deliver; (try dsimp only); (repeat' split) <;> simp
@[simp] theorem deliver_klr (f : Flight) (s : State) : (deliver f s).klr = s.klr := by unfold deliver; (try dsimp only); (repeat' split) <;> simp
@[simp] theorem deliver_taq (f : Flight) (s : State) : (deliver f s).taq = s.taq := by unfold deliver; (try dsimp only); (repeat' split) <;> simp
@[simp] theorem deliver_esc (f : Flight) (s : State) : (deliver f s).esc = s.esc := by unfold deliver; (try dsimp only); (repeat' split) <;> simp
@[simp] theorem deliver_settings (f : Flight) (s : State) : (deliver f s).settings = s.settings := by unfold deliver; (try dsimp only); (repeat' split) <;> simp
@[simp] theorem deliver_pmc (f : Flight) (s : State) : (deliver f s).pmc = s.pmc := by unfold deliver; (try dsimp only); (repeat' split) <;> simp
@[simp] theorem deliver_cmm (f : Flight) (s : State) : (deliver f s).cmm = s.cmm := by unfold deliver; (try dsimp only); (repeat' split) <;> simp
@[simp] theorem deliver_ram (f : Flight) (s : State) : (deliver f s).ram = s.ram := by unfold deliver; (try dsimp only); (repeat' split) <;> simp
@[simp] theorem deliver_pending (f : Flight) (s : State) : (deliver f s).pending = s.pending := by unfold deliver; (try dsimp only); (repeat' split) <;> simp
@[simp] theorem bellTest_hpa (s : State) : (bellTest s).hpa = s.hpa := by unfold bellTest; (try dsimp only); (repeat' split) <;> simp
@[simp] theorem bellTest_klr (s : State) : (bellTest s).klr = s.klr := by unfold bellTest; (try dsimp only); (repeat' split) <;> simp
@[simp] theorem bellTest_taq (s : State) : (bellTest s).taq = s.taq := by unfold bellTest; (try dsimp only); (repeat' split) <;> simp
@[simp] theorem bellTest_lst (s : State) : (bellTest s).lst = s.lst := by unfold bellTest; (try dsimp only); (repeat' split) <;> simp
@[simp] theorem bellTest_settings (s : State) : (bellTest s).settings = s.settings := by unfold bellTest; (try dsimp only); (repeat' split) <;> simp
@[simp] theorem bellTest_pmc (s : State) : (bellTest s).pmc = s.pmc := by unfold bellTest; (try dsimp only); (repeat' split) <;> simp
@[simp] theorem bellTest_cmm (s : State) : (bellTest s).cmm = s.cmm := by unfold bellTest; (try dsimp only); (repeat' split) <;> simp
@[simp] theorem bellTest_spc (s : State) : (bellTest s).spc = s.spc := by unfold bellTest; (try dsimp only); (repeat' split) <;> simp
@[simp] theorem bellTest_ntw (s : State) : (bellTest s).ntw = s.ntw := by unfold bellTest; (try dsimp only); (repeat' split) <;> simp
@[simp] theorem bellTest_ram (s : State) : (bellTest s).ram = s.ram := by unfold bellTest; (try dsimp only); (repeat' split) <;> simp
@[simp] theorem bellTest_pending (s : State) : (bellTest s).pending = s.pending := by unfold bellTest; (try dsimp only); (repeat' split) <;> simp

@[simp] theorem setConv_hpa (c : Conversion) (s : State) : (setConv c s).hpa = s.hpa := rfl
@[simp] theorem setConv_klr (c : Conversion) (s : State) : (setConv c s).klr = s.klr := rfl
@[simp] theorem setConv_taq (c : Conversion) (s : State) : (setConv c s).taq = s.taq := rfl
@[simp] theorem setConv_esc (c : Conversion) (s : State) : (setConv c s).esc = s.esc := rfl
@[simp] theorem setConv_settings (c : Conversion) (s : State) : (setConv c s).settings = s.settings := rfl
@[simp] theorem setConv_pmc (c : Conversion) (s : State) : (setConv c s).pmc = s.pmc := rfl
@[simp] theorem setConv_cmm (c : Conversion) (s : State) : (setConv c s).cmm = s.cmm := rfl
@[simp] theorem setConv_spc (c : Conversion) (s : State) : (setConv c s).spc = s.spc := rfl
@[simp] theorem setConv_dsp (c : Conversion) (s : State) : (setConv c s).dsp = s.dsp := rfl
@[simp] theorem setConv_ntw (c : Conversion) (s : State) : (setConv c s).ntw = s.ntw := rfl
@[simp] theorem setConv_tmb (c : Conversion) (s : State) : (setConv c s).tmb = s.tmb := rfl
@[simp] theorem setConv_ram (c : Conversion) (s : State) : (setConv c s).ram = s.ram := rfl
@[simp] theorem setConv_pending (c : Conversion) (s : State) : (setConv c s).pending = s.pending := rfl

@[simp] theorem appendCell_hpa (c : Cell) (s : State) : (appendCell c s).hpa = s.hpa := rfl
@[simp] theorem appendCell_klr (c : Cell) (s : State) : (appendCell c s).klr = s.klr := rfl
@[simp] theorem appendCell_taq (c : Cell) (s : State) : (appendCell c s).taq = s.taq := rfl
@[simp] theorem appendCell_esc (c : Cell) (s : State) : (appendCell c s).esc = s.esc := rfl
@[simp] theorem appendCell_settings (c : Cell) (s : State) : (appendCell c s).settings = s.settings := rfl
@[simp] theorem appendCell_pmc (c : Cell) (s : State) : (appendCell c s).pmc = s.pmc := rfl
@[simp] theorem appendCell_cmm (c : Cell) (s : State) : (appendCell c s).cmm = s.cmm := rfl
@[simp] theorem appendCell_spc (c : Cell) (s : State) : (appendCell c s).spc = s.spc := rfl
@[simp] theorem appendCell_dsp (c : Cell) (s : State) : (appendCell c s).dsp = s.dsp := rfl
@[simp] theorem appendCell_ntw (c : Cell) (s : State) : (appendCell c s).ntw = s.ntw := rfl
@[simp] theorem appendCell_tmb (c : Cell) (s : State) : (appendCell c s).tmb = s.tmb := rfl
@[simp] theorem appendCell_ram (c : Cell) (s : State) : (appendCell c s).ram = s.ram := rfl
@[simp] theorem appendCell_pending (c : Cell) (s : State) : (appendCell c s).pending = s.pending := rfl

@[simp] theorem placePrint_hpa (c : Cell) (s : State) : (placePrint c s).hpa = s.hpa := by unfold placePrint; (try dsimp only); (repeat' split) <;> simp
@[simp] theorem placePrint_klr (c : Cell) (s : State) : (placePrint c s).klr = s.klr := by unfold placePrint; (try dsimp only); (repeat' split) <;> simp
@[simp] theorem placePrint_taq (c : Cell) (s : State) : (placePrint c s).taq = s.taq := by unfold placePrint; (try dsimp only); (repeat' split) <;> simp
@[simp] theorem placePrint_lst (c : Cell) (s : State) : (placePrint c s).lst = s.lst := by unfold placePrint; (try dsimp only); (repeat' split) <;> simp
@[simp] theorem placePrint_esc (c : Cell) (s : State) : (placePrint c s).esc = s.esc := by unfold placePrint; (try dsimp only); (repeat' split) <;> simp
@[simp] theorem placePrint_settings (c : Cell) (s : State) : (placePrint c s).settings = s.settings := by unfold placePrint; (try dsimp only); (repeat' split) <;> simp
@[simp] theorem placePrint_cmm (c : Cell) (s : State) : (placePrint c s).cmm = s.cmm := by unfold placePrint; (try dsimp only); (repeat' split) <;> simp
@[simp] theorem placePrint_spc (c : Cell) (s : State) : (placePrint c s).spc = s.spc := by unfold placePrint; (try dsimp only); (repeat' split) <;> simp
@[simp] theorem placePrint_dsp (c : Cell) (s : State) : (placePrint c s).dsp = s.dsp := by unfold placePrint; (try dsimp only); (repeat' split) <;> simp
@[simp] theorem placePrint_ntw (c : Cell) (s : State) : (placePrint c s).ntw = s.ntw := by unfold placePrint; (try dsimp only); (repeat' split) <;> simp
@[simp] theorem placePrint_tmb (c : Cell) (s : State) : (placePrint c s).tmb = s.tmb := by unfold placePrint; (try dsimp only); (repeat' split) <;> simp
@[simp] theorem placePrint_ram (c : Cell) (s : State) : (placePrint c s).ram = s.ram := by unfold placePrint; (try dsimp only); (repeat' split) <;> simp
@[simp] theorem placePrint_pending (c : Cell) (s : State) : (placePrint c s).pending = s.pending := by unfold placePrint; (try dsimp only); (repeat' split) <;> simp

@[simp] theorem setComposed_hpa (o : Point) (cs : List Cell) (k : Nat) (s : State) : (setComposed o cs k s).hpa = s.hpa := rfl
@[simp] theorem setComposed_klr (o : Point) (cs : List Cell) (k : Nat) (s : State) : (setComposed o cs k s).klr = s.klr := rfl
@[simp] theorem setComposed_taq (o : Point) (cs : List Cell) (k : Nat) (s : State) : (setComposed o cs k s).taq = s.taq := rfl
@[simp] theorem setComposed_settings (o : Point) (cs : List Cell) (k : Nat) (s : State) : (setComposed o cs k s).settings = s.settings := rfl
@[simp] theorem setComposed_pmc (o : Point) (cs : List Cell) (k : Nat) (s : State) : (setComposed o cs k s).pmc = s.pmc := rfl
@[simp] theorem setComposed_cmm (o : Point) (cs : List Cell) (k : Nat) (s : State) : (setComposed o cs k s).cmm = s.cmm := rfl
@[simp] theorem setComposed_spc (o : Point) (cs : List Cell) (k : Nat) (s : State) : (setComposed o cs k s).spc = s.spc := rfl
@[simp] theorem setComposed_dsp (o : Point) (cs : List Cell) (k : Nat) (s : State) : (setComposed o cs k s).dsp = s.dsp := rfl
@[simp] theorem setComposed_ntw (o : Point) (cs : List Cell) (k : Nat) (s : State) : (setComposed o cs k s).ntw = s.ntw := rfl
@[simp] theorem setComposed_tmb (o : Point) (cs : List Cell) (k : Nat) (s : State) : (setComposed o cs k s).tmb = s.tmb := rfl
@[simp] theorem setComposed_ram (o : Point) (cs : List Cell) (k : Nat) (s : State) : (setComposed o cs k s).ram = s.ram := rfl
@[simp] theorem setComposed_pending (o : Point) (cs : List Cell) (k : Nat) (s : State) : (setComposed o cs k s).pending = s.pending := rfl

@[simp] theorem moveCursor_hpa (k : Nat) (s : State) : (moveCursor k s).hpa = s.hpa := rfl
@[simp] theorem moveCursor_klr (k : Nat) (s : State) : (moveCursor k s).klr = s.klr := rfl
@[simp] theorem moveCursor_taq (k : Nat) (s : State) : (moveCursor k s).taq = s.taq := rfl
@[simp] theorem moveCursor_settings (k : Nat) (s : State) : (moveCursor k s).settings = s.settings := rfl
@[simp] theorem moveCursor_pmc (k : Nat) (s : State) : (moveCursor k s).pmc = s.pmc := rfl
@[simp] theorem moveCursor_cmm (k : Nat) (s : State) : (moveCursor k s).cmm = s.cmm := rfl
@[simp] theorem moveCursor_spc (k : Nat) (s : State) : (moveCursor k s).spc = s.spc := rfl
@[simp] theorem moveCursor_dsp (k : Nat) (s : State) : (moveCursor k s).dsp = s.dsp := rfl
@[simp] theorem moveCursor_ntw (k : Nat) (s : State) : (moveCursor k s).ntw = s.ntw := rfl
@[simp] theorem moveCursor_tmb (k : Nat) (s : State) : (moveCursor k s).tmb = s.tmb := rfl
@[simp] theorem moveCursor_ram (k : Nat) (s : State) : (moveCursor k s).ram = s.ram := rfl
@[simp] theorem moveCursor_pending (k : Nat) (s : State) : (moveCursor k s).pending = s.pending := rfl

@[simp] theorem makeDirect_hpa (c : Cell) (a : Action) (s : State) : (makeDirect c a s).hpa = s.hpa := by unfold makeDirect; (try dsimp only); (repeat' split) <;> simp
@[simp] theorem makeDirect_klr (c : Cell) (a : Action) (s : State) : (makeDirect c a s).klr = s.klr := by unfold makeDirect; (try dsimp only); (repeat' split) <;> simp
@[simp] theorem makeDirect_settings (c : Cell) (a : Action) (s : State) : (makeDirect c a s).settings = s.settings := by unfold makeDirect; (try dsimp only); (repeat' split) <;> simp
@[simp] theorem makeDirect_cmm (c : Cell) (a : Action) (s : State) : (makeDirect c a s).cmm = s.cmm := by unfold makeDirect; (try dsimp only); (repeat' split) <;> simp
@[simp] theorem makeDirect_ntw (c : Cell) (a : Action) (s : State) : (makeDirect c a s).ntw = s.ntw := by unfold makeDirect; (try dsimp only); (repeat' split) <;> simp
@[simp] theorem makeDirect_ram (c : Cell) (a : Action) (s : State) : (makeDirect c a s).ram = s.ram := by unfold makeDirect; (try dsimp only); (repeat' split) <;> simp
@[simp] theorem makeDirect_pending (c : Cell) (a : Action) (s : State) : (makeDirect c a s).pending = s.pending := by unfold makeDirect; (try dsimp only); (repeat' split) <;> simp

@[simp] theorem offerDirect_hpa (c : Cell) (a : Action) (s : State) : (offerDirect c a s).hpa = s.hpa := by unfold offerDirect; (try dsimp only); (repeat' split) <;> simp
@[simp] theorem offerDirect_klr (c : Cell) (a : Action) (s : State) : (offerDirect c a s).klr = s.klr := by unfold offerDirect; (try dsimp only); (repeat' split) <;> simp
@[simp] theorem offerDirect_settings (c : Cell) (a : Action) (s : State) : (offerDirect c a s).settings = s.settings := by unfold offerDirect; (try dsimp only); (repeat' split) <;> simp
@[simp] theorem offerDirect_cmm (c : Cell) (a : Action) (s : State) : (offerDirect c a s).cmm = s.cmm := by unfold offerDirect; (try dsimp only); (repeat' split) <;> simp
@[simp] theorem offerDirect_ram (c : Cell) (a : Action) (s : State) : (offerDirect c a s).ram = s.ram := by unfold offerDirect; (try dsimp only); (repeat' split) <;> simp
@[simp] theorem offerDirect_pending (c : Cell) (a : Action) (s : State) : (offerDirect c a s).pending = s.pending := by unfold offerDirect; (try dsimp only); (repeat' split) <;> simp

@[simp] theorem insertComposed_hpa (c : Cell) (a : Action) (s : State) : (insertComposed c a s).hpa = s.hpa := by unfold insertComposed; (try dsimp only); (repeat' split) <;> simp
@[simp] theorem insertComposed_klr (c : Cell) (a : Action) (s : State) : (insertComposed c a s).klr = s.klr := by unfold insertComposed; (try dsimp only); (repeat' split) <;> simp
@[simp] theorem insertComposed_settings (c : Cell) (a : Action) (s : State) : (insertComposed c a s).settings = s.settings := by unfold insertComposed; (try dsimp only); (repeat' split) <;> simp
@[simp] theorem insertComposed_pmc (c : Cell) (a : Action) (s : State) : (insertComposed c a s).pmc = s.pmc := by unfold insertComposed; (try dsimp only); (repeat' split) <;> simp
@[simp] theorem insertComposed_cmm (c : Cell) (a : Action) (s : State) : (insertComposed c a s).cmm = s.cmm := by unfold insertComposed; (try dsimp only); (repeat' split) <;> simp
@[simp] theorem insertComposed_ram (c : Cell) (a : Action) (s : State) : (insertComposed c a s).ram = s.ram := by unfold insertComposed; (try dsimp only); (repeat' split) <;> simp
@[simp] theorem insertComposed_pending (c : Cell) (a : Action) (s : State) : (insertComposed c a s).pending = s.pending := by unfold insertComposed; (try dsimp only); (repeat' split) <;> simp

@[simp] theorem changeEsc_hpa (e : Esc) (a : Action) (s : State) : (changeEsc e a s).hpa = s.hpa := by unfold changeEsc; (try dsimp only); (repeat' split) <;> simp
@[simp] theorem changeEsc_klr (e : Esc) (a : Action) (s : State) : (changeEsc e a s).klr = s.klr := by unfold changeEsc; (try dsimp only); (repeat' split) <;> simp
@[simp] theorem changeEsc_settings (e : Esc) (a : Action) (s : State) : (changeEsc e a s).settings = s.settings := by unfold changeEsc; (try dsimp only); (repeat' split) <;> simp
@[simp] theorem changeEsc_pmc (e : Esc) (a : Action) (s : State) : (changeEsc e a s).pmc = s.pmc := by unfold changeEsc; (try dsimp only); (repeat' split) <;> simp
@[simp] theorem changeEsc_cmm (e : Esc) (a : Action) (s : State) : (changeEsc e a s).cmm = s.cmm := by unfold changeEsc; (try dsimp only); (repeat' split) <;> simp
@[simp] theorem changeEsc_spc (e : Esc) (a : Action) (s : State) : (changeEsc e a s).spc = s.spc := by unfold changeEsc; (try dsimp only); (repeat' split) <;> simp
@[simp] theorem changeEsc_ram (e : Esc) (a : Action) (s : State) : (changeEsc e a s).ram = s.ram := by unfold changeEsc; (try dsimp only); (repeat' split) <;> simp
@[simp] theorem changeEsc_pending (e : Esc) (a : Action) (s : State) : (changeEsc e a s).pending = s.pending := by unfold changeEsc; (try dsimp only); (repeat' split) <;> simp

@[simp] theorem applyMode_hpa (a : Action) (s : State) : (applyMode a s).hpa = s.hpa := by unfold applyMode; (try dsimp only); (repeat' split) <;> simp
@[simp] theorem applyMode_klr (a : Action) (s : State) : (applyMode a s).klr = s.klr := by unfold applyMode; (try dsimp only); (repeat' split) <;> simp
@[simp] theorem applyMode_taq (a : Action) (s : State) : (applyMode a s).taq = s.taq := by unfold applyMode; (try dsimp only); (repeat' split) <;> simp
@[simp] theorem applyMode_settings (a : Action) (s : State) : (applyMode a s).settings = s.settings := by unfold applyMode; (try dsimp only); (repeat' split) <;> simp
@[simp] theorem applyMode_pmc (a : Action) (s : State) : (applyMode a s).pmc = s.pmc := by unfold applyMode; (try dsimp only); (repeat' split) <;> simp
@[simp] theorem applyMode_cmm (a : Action) (s : State) : (applyMode a s).cmm = s.cmm := by unfold applyMode; (try dsimp only); (repeat' split) <;> simp
@[simp] theorem applyMode_dsp (a : Action) (s : State) : (applyMode a s).dsp = s.dsp := by unfold applyMode; (try dsimp only); (repeat' split) <;> simp
@[simp] theorem applyMode_ntw (a : Action) (s : State) : (applyMode a s).ntw = s.ntw := by unfold applyMode; (try dsimp only); (repeat' split) <;> simp
@[simp] theorem applyMode_tmb (a : Action) (s : State) : (applyMode a s).tmb = s.tmb := by unfold applyMode; (try dsimp only); (repeat' split) <;> simp
@[simp] theorem applyMode_ram (a : Action) (s : State) : (applyMode a s).ram = s.ram := by unfold applyMode; (try dsimp only); (repeat' split) <;> simp
@[simp] theorem applyMode_pending (a : Action) (s : State) : (applyMode a s).pending = s.pending := by unfold applyMode; (try dsimp only); (repeat' split) <;> simp

@[simp] theorem beginReturnRelease_hpa (s : State) : (beginReturnRelease s).hpa = s.hpa := by unfold beginReturnRelease; (try dsimp only); (repeat' split) <;> simp
@[simp] theorem beginReturnRelease_klr (s : State) : (beginReturnRelease s).klr = s.klr := by unfold beginReturnRelease; (try dsimp only); (repeat' split) <;> simp
@[simp] theorem beginReturnRelease_taq (s : State) : (beginReturnRelease s).taq = s.taq := by unfold beginReturnRelease; (try dsimp only); (repeat' split) <;> simp
@[simp] theorem beginReturnRelease_settings (s : State) : (beginReturnRelease s).settings = s.settings := by unfold beginReturnRelease; (try dsimp only); (repeat' split) <;> simp
@[simp] theorem beginReturnRelease_pmc (s : State) : (beginReturnRelease s).pmc = s.pmc := by unfold beginReturnRelease; (try dsimp only); (repeat' split) <;> simp
@[simp] theorem beginReturnRelease_cmm (s : State) : (beginReturnRelease s).cmm = s.cmm := by unfold beginReturnRelease; (try dsimp only); (repeat' split) <;> simp
@[simp] theorem beginReturnRelease_spc (s : State) : (beginReturnRelease s).spc = s.spc := by unfold beginReturnRelease; (try dsimp only); (repeat' split) <;> simp
@[simp] theorem beginReturnRelease_dsp (s : State) : (beginReturnRelease s).dsp = s.dsp := by unfold beginReturnRelease; (try dsimp only); (repeat' split) <;> simp
@[simp] theorem beginReturnRelease_ntw (s : State) : (beginReturnRelease s).ntw = s.ntw := by unfold beginReturnRelease; (try dsimp only); (repeat' split) <;> simp
@[simp] theorem beginReturnRelease_ram (s : State) : (beginReturnRelease s).ram = s.ram := by unfold beginReturnRelease; (try dsimp only); (repeat' split) <;> simp
@[simp] theorem beginReturnRelease_pending (s : State) : (beginReturnRelease s).pending = s.pending := by unfold beginReturnRelease; (try dsimp only); (repeat' split) <;> simp

@[simp] theorem finishRelease_hpa (b : Bool) (e : Point) (a : Action) (s : State) : (finishRelease b e a s).hpa = s.hpa := by unfold finishRelease; (try dsimp only); (repeat' split) <;> simp
@[simp] theorem finishRelease_klr (b : Bool) (e : Point) (a : Action) (s : State) : (finishRelease b e a s).klr = s.klr := by unfold finishRelease; (try dsimp only); (repeat' split) <;> simp
@[simp] theorem finishRelease_settings (b : Bool) (e : Point) (a : Action) (s : State) : (finishRelease b e a s).settings = s.settings := by unfold finishRelease; (try dsimp only); (repeat' split) <;> simp
@[simp] theorem finishRelease_pmc (b : Bool) (e : Point) (a : Action) (s : State) : (finishRelease b e a s).pmc = s.pmc := by unfold finishRelease; (try dsimp only); (repeat' split) <;> simp
@[simp] theorem finishRelease_cmm (b : Bool) (e : Point) (a : Action) (s : State) : (finishRelease b e a s).cmm = s.cmm := by unfold finishRelease; (try dsimp only); (repeat' split) <;> simp
@[simp] theorem finishRelease_ntw (b : Bool) (e : Point) (a : Action) (s : State) : (finishRelease b e a s).ntw = s.ntw := by unfold finishRelease; (try dsimp only); (repeat' split) <;> simp
@[simp] theorem finishRelease_ram (b : Bool) (e : Point) (a : Action) (s : State) : (finishRelease b e a s).ram = s.ram := by unfold finishRelease; (try dsimp only); (repeat' split) <;> simp
@[simp] theorem finishRelease_pending (b : Bool) (e : Point) (a : Action) (s : State) : (finishRelease b e a s).pending = s.pending := by unfold finishRelease; (try dsimp only); (repeat' split) <;> simp

@[simp] theorem releaseCell_hpa (b : Bool) (c : Cell) (a : Action) (s : State) : (releaseCell b c a s).hpa = s.hpa := by unfold releaseCell; (try dsimp only); (repeat' split) <;> simp
@[simp] theorem releaseCell_klr (b : Bool) (c : Cell) (a : Action) (s : State) : (releaseCell b c a s).klr = s.klr := by unfold releaseCell; (try dsimp only); (repeat' split) <;> simp
@[simp] theorem releaseCell_settings (b : Bool) (c : Cell) (a : Action) (s : State) : (releaseCell b c a s).settings = s.settings := by unfold releaseCell; (try dsimp only); (repeat' split) <;> simp
@[simp] theorem releaseCell_cmm (b : Bool) (c : Cell) (a : Action) (s : State) : (releaseCell b c a s).cmm = s.cmm := by unfold releaseCell; (try dsimp only); (repeat' split) <;> simp
@[simp] theorem releaseCell_ntw (b : Bool) (c : Cell) (a : Action) (s : State) : (releaseCell b c a s).ntw = s.ntw := by unfold releaseCell; (try dsimp only); (repeat' split) <;> simp
@[simp] theorem releaseCell_ram (b : Bool) (c : Cell) (a : Action) (s : State) : (releaseCell b c a s).ram = s.ram := by unfold releaseCell; (try dsimp only); (repeat' split) <;> simp
@[simp] theorem releaseCell_pending (b : Bool) (c : Cell) (a : Action) (s : State) : (releaseCell b c a s).pending = s.pending := by unfold releaseCell; (try dsimp only); (repeat' split) <;> simp

@[simp] theorem reopen_hpa (s : State) : (reopen s).hpa = s.hpa := rfl
@[simp] theorem reopen_klr (s : State) : (reopen s).klr = s.klr := rfl
@[simp] theorem reopen_taq (s : State) : (reopen s).taq = s.taq := rfl
@[simp] theorem reopen_esc (s : State) : (reopen s).esc = s.esc := rfl
@[simp] theorem reopen_settings (s : State) : (reopen s).settings = s.settings := rfl
@[simp] theorem reopen_pmc (s : State) : (reopen s).pmc = s.pmc := rfl
@[simp] theorem reopen_spc (s : State) : (reopen s).spc = s.spc := rfl
@[simp] theorem reopen_dsp (s : State) : (reopen s).dsp = s.dsp := rfl
@[simp] theorem reopen_ntw (s : State) : (reopen s).ntw = s.ntw := rfl
@[simp] theorem reopen_tmb (s : State) : (reopen s).tmb = s.tmb := rfl
@[simp] theorem reopen_ram (s : State) : (reopen s).ram = s.ram := rfl
@[simp] theorem reopen_pending (s : State) : (reopen s).pending = s.pending := rfl

@[simp] theorem placeFeed_hpa (n : Int) (s : State) : (placeFeed n s).hpa = s.hpa := by unfold placeFeed; (try dsimp only); (repeat' split) <;> simp
@[simp] theorem placeFeed_klr (n : Int) (s : State) : (placeFeed n s).klr = s.klr := by unfold placeFeed; (try dsimp only); (repeat' split) <;> simp
@[simp] theorem placeFeed_taq (n : Int) (s : State) : (placeFeed n s).taq = s.taq := by unfold placeFeed; (try dsimp only); (repeat' split) <;> simp
@[simp] theorem placeFeed_lst (n : Int) (s : State) : (placeFeed n s).lst = s.lst := by unfold placeFeed; (try dsimp only); (repeat' split) <;> simp
@[simp] theorem placeFeed_esc (n : Int) (s : State) : (placeFeed n s).esc = s.esc := by unfold placeFeed; (try dsimp only); (repeat' split) <;> simp
@[simp] theorem placeFeed_settings (n : Int) (s : State) : (placeFeed n s).settings = s.settings := by unfold placeFeed; (try dsimp only); (repeat' split) <;> simp
@[simp] theorem placeFeed_cmm (n : Int) (s : State) : (placeFeed n s).cmm = s.cmm := by unfold placeFeed; (try dsimp only); (repeat' split) <;> simp
@[simp] theorem placeFeed_spc (n : Int) (s : State) : (placeFeed n s).spc = s.spc := by unfold placeFeed; (try dsimp only); (repeat' split) <;> simp
@[simp] theorem placeFeed_dsp (n : Int) (s : State) : (placeFeed n s).dsp = s.dsp := by unfold placeFeed; (try dsimp only); (repeat' split) <;> simp
@[simp] theorem placeFeed_ntw (n : Int) (s : State) : (placeFeed n s).ntw = s.ntw := by unfold placeFeed; (try dsimp only); (repeat' split) <;> simp
@[simp] theorem placeFeed_tmb (n : Int) (s : State) : (placeFeed n s).tmb = s.tmb := by unfold placeFeed; (try dsimp only); (repeat' split) <;> simp
@[simp] theorem placeFeed_ram (n : Int) (s : State) : (placeFeed n s).ram = s.ram := by unfold placeFeed; (try dsimp only); (repeat' split) <;> simp
@[simp] theorem placeFeed_pending (n : Int) (s : State) : (placeFeed n s).pending = s.pending := by unfold placeFeed; (try dsimp only); (repeat' split) <;> simp

@[simp] theorem closeLine_hpa (a : Action) (s : State) : (closeLine a s).hpa = s.hpa := by unfold closeLine; (try dsimp only); (repeat' split) <;> simp
@[simp] theorem closeLine_klr (a : Action) (s : State) : (closeLine a s).klr = s.klr := by unfold closeLine; (try dsimp only); (repeat' split) <;> simp
@[simp] theorem closeLine_settings (a : Action) (s : State) : (closeLine a s).settings = s.settings := by unfold closeLine; (try dsimp only); (repeat' split) <;> simp
@[simp] theorem closeLine_ram (a : Action) (s : State) : (closeLine a s).ram = s.ram := by unfold closeLine; (try dsimp only); (repeat' split) <;> simp
@[simp] theorem closeLine_pending (a : Action) (s : State) : (closeLine a s).pending = s.pending := by unfold closeLine; (try dsimp only); (repeat' split) <;> simp

end Sys2Proof.Machine
end

