-- ==== Sys2Proof/Laws/Memory.lean ====
section
/-! SUPPORT. The memory operations: what a read finds after a write, and that every write keeps the canonical form. -/
namespace Sys2Proof.Machine

theorem Memory.read_put_same (a : Nat) (v : Byte) (m : Memory) (h : v ≠ Config.ramUnlisted) :
    Memory.read (Memory.put a v m) a = v := by
  simp [Memory.put, h, Memory.read]

theorem Memory.read_put_other (a b : Nat) (v : Byte) (m : Memory) (h : b ≠ a) :
    Memory.read (Memory.put a v m) b = Memory.read m b := by
  unfold Memory.put
  split
  · rfl
  · simp [Memory.read, h]

/-- An address below every listed one reads as an unlisted byte. -/
theorem Memory.read_below (m : Memory) (lo a : Nat) (h : Memory.rising lo m = true) (ha : a < lo) :
    Memory.read m a = Config.ramUnlisted := by
  induction m generalizing lo with
  | nil => rfl
  | cons c m ih =>
    simp only [Memory.rising, Bool.and_eq_true, decide_eq_true_eq] at h
    unfold Memory.read
    rw [if_neg (by omega)]
    exact ih (c.1 + 1) h.2 (by omega)

/-- Reading the address just written gives the value written, in a canonical memory. -/
theorem Memory.read_write_same (m : Memory) (a : Nat) (v : Byte) (lo : Nat) (h : Memory.rising lo m = true) :
    Memory.read (Memory.write a v m) a = v := by
  induction m generalizing lo with
  | nil =>
    unfold Memory.write Memory.put
    split
    · rename_i hv; simp [Memory.read, hv]
    · simp [Memory.read]
  | cons c m ih =>
    obtain ⟨b, w⟩ := c
    simp only [Memory.rising, Bool.and_eq_true, decide_eq_true_eq] at h
    unfold Memory.write
    split
    · rename_i hab
      unfold Memory.put
      split
      · rename_i hv
        unfold Memory.read
        rw [if_neg (by omega), hv]
        exact Memory.read_below m (b + 1) a h.2 (by omega)
      · simp [Memory.read]
    · split
      · rename_i hab
        subst hab
        unfold Memory.put
        split
        · rename_i hv
          rw [hv]
          exact Memory.read_below m (a + 1) a h.2 (by omega)
        · simp [Memory.read]
      · unfold Memory.read
        rw [if_neg (by assumption)]
        exact ih (b + 1) h.2

/-- Reading any other address is not changed by a write. -/
theorem Memory.read_write_other (m : Memory) (a b : Nat) (v : Byte) (h : b ≠ a) :
    Memory.read (Memory.write a v m) b = Memory.read m b := by
  induction m with
  | nil => simpa [Memory.write] using Memory.read_put_other a b v [] h
  | cons c m ih =>
    obtain ⟨d, w⟩ := c
    unfold Memory.write
    split
    · exact Memory.read_put_other a b v _ h
    · split
      · rename_i had
        subst had
        rw [Memory.read_put_other a b v m h]
        simp [Memory.read, h]
      · unfold Memory.read
        split
        · rfl
        · exact ih

theorem Memory.rising_mono (m : Memory) (lo hi : Nat) (h : Memory.rising hi m = true) (hl : lo ≤ hi) :
    Memory.rising lo m = true := by
  cases m with
  | nil => rfl
  | cons c m =>
    simp only [Memory.rising, Bool.and_eq_true, decide_eq_true_eq] at h ⊢
    exact ⟨by omega, h.2⟩

theorem Memory.rising_write (m : Memory) (a : Nat) (v : Byte) (lo : Nat) (h : Memory.rising lo m = true) (ha : lo ≤ a) :
    Memory.rising lo (Memory.write a v m) = true := by
  induction m generalizing lo with
  | nil =>
    unfold Memory.write Memory.put
    split
    · rfl
    · simp [Memory.rising, ha]
  | cons c m ih =>
    obtain ⟨b, w⟩ := c
    have h' := h
    simp only [Memory.rising, Bool.and_eq_true, decide_eq_true_eq] at h
    unfold Memory.write
    split
    · unfold Memory.put
      split
      · exact h'
      · simp only [Memory.rising, Bool.and_eq_true, decide_eq_true_eq]
        exact ⟨ha, by omega, h.2⟩
    · split
      · rename_i hab
        subst hab
        unfold Memory.put
        split
        · exact Memory.rising_mono m lo (a + 1) h.2 (by omega)
        · simp only [Memory.rising, Bool.and_eq_true, decide_eq_true_eq]
          exact ⟨ha, h.2⟩
      · simp only [Memory.rising, Bool.and_eq_true, decide_eq_true_eq]
        exact ⟨h.1, ih (b + 1) h.2 (by omega)⟩

theorem Memory.all_write (p : Host.Cell → Bool) (m : Memory) (a : Nat) (v : Byte) (h : m.all p = true)
    (hp : v ≠ Config.ramUnlisted → p (a, v) = true) : (Memory.write a v m).all p = true := by
  induction m with
  | nil =>
    unfold Memory.write Memory.put
    split
    · rfl
    · rename_i hv; simp [hp hv]
  | cons c m ih =>
    obtain ⟨b, w⟩ := c
    have h' := h
    rw [List.all_cons, Bool.and_eq_true] at h
    unfold Memory.write
    split
    · unfold Memory.put
      split
      · exact h'
      · rename_i hv; rw [List.all_cons, hp hv, h', Bool.and_self]
    · split
      · unfold Memory.put
        split
        · exact h.2
        · rename_i hv; rw [List.all_cons, hp hv, h.2, Bool.and_self]
      · rw [List.all_cons, h.1, ih h.2, Bool.and_self]

/-- A write inside the RAM keeps the canonical form. -/
theorem Memory.wf_write (m : Memory) (a : Nat) (v : Byte) (h : Memory.wf m = true) (ha : a < Config.ramSize) :
    Memory.wf (Memory.write a v m) = true := by
  unfold Memory.wf at h ⊢
  rw [Bool.and_eq_true] at h ⊢
  refine ⟨Memory.rising_write m a v 0 h.1 (Nat.zero_le a), Memory.all_write _ m a v h.2 ?_⟩
  intro hv
  simp [ha, hv]

theorem Memory.rising_of_wf (m : Memory) (h : Memory.wf m = true) : Memory.rising 0 m = true := by
  unfold Memory.wf at h
  rw [Bool.and_eq_true] at h
  exact h.1

/-! ### The part's writes -/

theorem ramSize_pos : 0 < Config.ramSize := by decide

theorem writeByte_wf (a : Nat) (v : Byte) (s : State) (h : Memory.wf s.ram = true) :
    Memory.wf (writeByte a v s).ram = true :=
  Memory.wf_write s.ram _ v h (Nat.mod_lt a ramSize_pos)

theorem writeHalf_wf (a : Nat) (v : Half) (s : State) (h : Memory.wf s.ram = true) :
    Memory.wf (writeHalf a v s).ram = true :=
  writeByte_wf _ _ _ (writeByte_wf _ _ s h)

theorem writeBytes_wf (vs : List Byte) (a : Nat) (s : State) (h : Memory.wf s.ram = true) :
    Memory.wf (writeBytes a vs s).ram = true := by
  induction vs generalizing a s with
  | nil => exact h
  | cons v vs ih => exact ih (a + 1) _ (writeByte_wf a v s h)

/-- A byte the part wrote reads back. -/
theorem ramByte_writeByte_same (a : Nat) (v : Byte) (s : State) (h : Memory.wf s.ram = true) :
    ramByte (writeByte a v s) a = v :=
  Memory.read_write_same s.ram _ v 0 (Memory.rising_of_wf s.ram h)

/-- A byte at any other address of the RAM is not changed by a write of the part. -/
theorem ramByte_writeByte_other (a b : Nat) (v : Byte) (s : State) (h : b % Config.ramSize ≠ a % Config.ramSize) :
    ramByte (writeByte a v s) b = ramByte s b :=
  Memory.read_write_other s.ram _ _ v h

end Sys2Proof.Machine
end

