-- ==== Sys2Proof/Laws/Port.lean ====
section
/-! SUPPORT. What the RAM port's order of grant, a host write's events and the timers can do, said once for each. -/
namespace Sys2Proof.Machine

/-! ### The order of grant (R138) -/

/-- Nothing is granted only when nothing waits. -/
theorem grantNext_none_iff (rs : List Requester) : grantNext rs = none ↔ rs = [] := by
  cases rs with
  | nil => simp [grantNext]
  | cons r rs =>
    simp only [grantNext, reduceCtorEq, iff_false]
    split
    · split <;> simp
    · simp

/-- What is granted was waiting, and none that waits is ranked before it. -/
theorem grantNext_first {rs : List Requester} {r : Requester} (h : grantNext rs = some r) :
    r ∈ rs ∧ ∀ q ∈ rs, r.rank ≤ q.rank := by
  induction rs generalizing r with
  | nil => simp [grantNext] at h
  | cons x xs ih =>
    rw [grantNext] at h
    split at h
    · rename_i q hq
      have hx := ih hq
      split at h
      · injection h with h
        subst h
        refine ⟨by simp, fun p hp => ?_⟩
        rcases List.mem_cons.mp hp with hp | hp
        · exact hp ▸ Nat.le_refl _
        · have := hx.2 p hp
          omega
      · injection h with h
        subst h
        refine ⟨by simp [hx.1], fun p hp => ?_⟩
        rcases List.mem_cons.mp hp with hp | hp
        · rw [hp]
          omega
        · exact hx.2 p hp
    · rename_i hq
      injection h with h
      subst h
      rw [(grantNext_none_iff xs).mp hq]
      simp

/-- With no request waiting the port serves nothing. -/
theorem servePort_idle (work : Requester → State → State) (n : Nat) (s : State) (h : s.hpa.portRequests = []) :
    servePort work n s = s := by
  cases n with
  | zero => rfl
  | succ n => simp [servePort, h, grantNext]

/-- One request waiting is served, and then none waits before its accesses. -/
theorem servePort_one (work : Requester → State → State) (n : Nat) (r : Requester) (s : State) :
    servePort work (n + 1) (askPort [r] s) = servePort work n (work r (askPort [] s)) := by
  cases r <;> rfl

/-- A list poll with nothing to poll for changes nothing (R148, R152). -/
theorem listPoll_idle (s : State) (hk : s.klr.state ≠ .atEnd) (hn : s.ntw.ringWaiting = false)
    (hp : s.hpa.portRequests = []) : listPoll s = s := by
  have he : askPort [] s = s := by
    cases s with
    | mk hpa _ _ _ _ _ _ _ _ _ _ _ _ _ => cases hpa; simp_all [askPort, State.withHpa]
  simp [listPoll, pollRequests, hk, hn, he, servePort_idle, hp]

/-! ### A host write's events (R139) -/

/-- A write with SOFT_RESET 1 is the soft reset alone. -/
theorem commandEvents_softReset (v : Byte) (h : v.getLsbD 5 = true) : commandEvents v = [.softReset] := by
  simp [commandEvents, h]

theorem carryOut_cons_next (run : Instr → State → Host.Outcome State Fault Refusal) (c : Instr) (cs : List Instr)
    (s t : State) (h : run c s = .next t) : carryOut run (c :: cs) s = carryOut run cs t := by
  simp [carryOut, h]

/-! ### Timers (R155) -/

theorem ranOut_iff (t : Option Nat) : ranOut t = true ↔ t = some 0 := by simp [ranOut]

/-- A timer that is started has not run out, whatever its length, unless it has none and is started on a tick. -/
theorem startTimer_runs (s : State) (ms : Nat) (h : 0 < ms ∨ s.tmb.onTick = false) : ranOut (startTimer s ms) = false := by
  unfold startTimer
  simp only [ranOut, Option.some.injEq, decide_eq_false_iff_not]
  split <;> rename_i ht
  · simp only [ht, reduceCtorEq, or_false] at h
    omega
  · omega

/-- On a tick, time passes to the moment after it and nothing else changes. -/
theorem tick_onTick (s : State) (hp : s.hpa.resetPin = false) (h : s.tmb.onTick = true) :
    tick s = s.withTmb { s.tmb with onTick := false } := by simp [tick, hp, h]

/-- Between two ticks, time passes to the next tick. -/
theorem tick_between (s : State) (hp : s.hpa.resetPin = false) (h : s.tmb.onTick = false) :
    tick s = (s.withTmb (countTimers s)).withPending
      (s.pending ++ (dueExpiries (s.withTmb (countTimers s)) ++ dueMarks (s.withTmb (countTimers s)))) :=
  (if_neg (by simp [hp])).trans ((if_neg (by simp [h])).trans rfl)

/-- A tick takes a timer out only when one tick was left, or when it had run out before. -/
theorem countDown_ranOut_iff (t : Option Nat) : ranOut (countDown t) = true ↔ t = some 0 ∨ t = some 1 := by
  cases t with
  | none => simp [countDown, ranOut]
  | some n =>
    simp [countDown, ranOut]
    omega

end Sys2Proof.Machine
end

