-- ==== Sys2Proof/Laws/Traffic.lean ====
section
/-! SUPPORT. What the host's accesses among a block's own can do (R137, R138), said once for each operation of Arbiter.lean, and what the search of the User Word List finds. -/
namespace Sys2Proof.Machine

/-! ### One access -/

@[simp] theorem makeAccess_klr (x : RamAccess) (s : State) : (makeAccess x s).klr = s.klr := by
  unfold makeAccess hostAccess noteTouched
  (repeat' split) <;> simp
@[simp] theorem makeAccess_taq (x : RamAccess) (s : State) : (makeAccess x s).taq = s.taq := by
  unfold makeAccess hostAccess noteTouched
  (repeat' split) <;> simp
@[simp] theorem makeAccess_lst (x : RamAccess) (s : State) : (makeAccess x s).lst = s.lst := by
  unfold makeAccess hostAccess noteTouched
  (repeat' split) <;> simp
@[simp] theorem makeAccess_esc (x : RamAccess) (s : State) : (makeAccess x s).esc = s.esc := by
  unfold makeAccess hostAccess noteTouched
  (repeat' split) <;> simp
@[simp] theorem makeAccess_settings (x : RamAccess) (s : State) : (makeAccess x s).settings = s.settings := by
  unfold makeAccess hostAccess noteTouched
  (repeat' split) <;> simp
@[simp] theorem makeAccess_pmc (x : RamAccess) (s : State) : (makeAccess x s).pmc = s.pmc := by
  unfold makeAccess hostAccess noteTouched
  (repeat' split) <;> simp
@[simp] theorem makeAccess_cmm (x : RamAccess) (s : State) : (makeAccess x s).cmm = s.cmm := by
  unfold makeAccess hostAccess noteTouched
  (repeat' split) <;> simp
@[simp] theorem makeAccess_spc (x : RamAccess) (s : State) : (makeAccess x s).spc = s.spc := by
  unfold makeAccess hostAccess noteTouched
  (repeat' split) <;> simp
@[simp] theorem makeAccess_dsp (x : RamAccess) (s : State) : (makeAccess x s).dsp = s.dsp := by
  unfold makeAccess hostAccess noteTouched
  (repeat' split) <;> simp
@[simp] theorem makeAccess_tmb (x : RamAccess) (s : State) : (makeAccess x s).tmb = s.tmb := by
  unfold makeAccess hostAccess noteTouched
  (repeat' split) <;> simp
@[simp] theorem makeAccess_pending (x : RamAccess) (s : State) : (makeAccess x s).pending = s.pending := by
  unfold makeAccess hostAccess noteTouched
  (repeat' split) <;> simp

/-- A host access may change HPA's answer, the RAM and NTW's note of a touched NoticeTaken, and nothing else. -/
theorem makeAccess_hpa (x : RamAccess) (s : State) :
    (makeAccess x s).hpa = { s.hpa with hostData := (makeAccess x s).hpa.hostData } := by
  unfold makeAccess hostAccess noteTouched
  (repeat' split) <;> simp

theorem makeAccess_ntw (x : RamAccess) (s : State) :
    (makeAccess x s).ntw = { s.ntw with takenTouched := (makeAccess x s).ntw.takenTouched } := by
  unfold makeAccess hostAccess noteTouched
  (repeat' split) <;> simp

/-- A well-formed access made now is HOST_RAM_ACCESS of it. -/
theorem makeAccess_exec (x : RamAccess) (s : State) (h : x.wellFormed = true) :
    execHostRamAccess (.now x) s = .next (makeAccess x s) := by
  unfold execHostRamAccess makeAccess
  rw [if_pos h]
  cases x <;>
    simp_all [HostAccess.ram, RamAccess.wellFormed, RamAccess.inRam, RamAccess.even, accessAddr, isWordAccess, Nat.not_le]

/-- A well-formed access to come is noted, and nothing is made. -/
theorem noteComing_exec (n : Nat) (x : RamAccess) (s : State) (h : x.wellFormed = true) :
    execHostRamAccess (.during n x) s = .next (noteComing { turn := n, access := x } s) := by
  unfold execHostRamAccess
  cases x <;>
    simp_all [HostAccess.ram, RamAccess.wellFormed, RamAccess.inRam, RamAccess.even, accessAddr, isWordAccess, Nat.not_le]

/-- A host access keeps the RAM in canonical form. -/
theorem makeAccess_wf (x : RamAccess) (s : State) (h : Memory.wf s.ram = true) : Memory.wf (makeAccess x s).ram = true := by
  unfold makeAccess
  split
  · cases x with
    | readByte a => exact h
    | readWord a => exact h
    | writeByte a v =>
      have := writeByte_wf a.toNat v s h
      unfold hostAccess noteTouched
      dsimp only
      split <;> exact this
    | writeWord a v =>
      have := writeHalf_wf a.toNat v s h
      unfold hostAccess noteTouched
      dsimp only
      split <;> exact this
  · exact h

theorem noteTouched_read (a w b : Nat) (s : State) : ramByte (noteTouched a w s) b = ramByte s b := by
  unfold noteTouched
  split <;> rfl

/-- A host access that writes no byte of a record leaves the record's bytes as they are (R137). -/
theorem makeAccess_keeps_record (record : Nat) (x : RamAccess) (s : State) (i : Nat) (hi : i < 8)
    (hx : writesRecord record x = false) : ramByte (makeAccess x s) (record + i) = ramByte s (record + i) := by
  unfold makeAccess
  split
  · rename_i hw
    cases x with
    | readByte a => rfl
    | readWord a => rfl
    | writeByte a v =>
      simp only [writesRecord, List.any_eq_false, List.mem_range, decide_eq_true_eq] at hx
      simp only [RamAccess.wellFormed, RamAccess.inRam, decide_eq_true_eq] at hw
      rw [hostAccess, noteTouched_read, ramByte_writeByte_other]
      rw [Nat.mod_eq_of_lt hw]
      exact fun h => hx i hi h.symm
    | writeWord a v =>
      simp only [writesRecord, List.any_eq_false, List.mem_range, decide_eq_true_eq, not_or] at hx
      simp only [RamAccess.wellFormed, RamAccess.inRam, RamAccess.even, Bool.and_eq_true, decide_eq_true_eq] at hw
      have hr : Config.ramSize = 32768 := rfl
      rw [hostAccess, noteTouched_read, writeHalf, ramByte_writeByte_other, ramByte_writeByte_other]
      · rw [Nat.mod_eq_of_lt hw.1]
        exact fun h => (hx i hi).1 h.symm
      · rw [Nat.mod_eq_of_lt (by omega : a.toNat + 1 < Config.ramSize)]
        exact fun h => (hx i hi).2 h.symm
  · rfl

/-! ### The accesses before one of a block's -/

@[simp] theorem servedBefore_nil (r : Requester) (s : State) : servedBefore r [] s = s := rfl

/-- The host is granted whenever it waits (R138). -/
@[simp] theorem servedBefore_cons (r : Requester) (x : RamAccess) (xs : List RamAccess) (s : State) :
    servedBefore r (x :: xs) s = servedBefore r xs (makeAccess x s) := by cases r <;> rfl

theorem servedBefore_append (r : Requester) (xs ys : List RamAccess) (s : State) :
    servedBefore r (xs ++ ys) s = servedBefore r ys (servedBefore r xs s) := by
  induction xs generalizing s with
  | nil => rfl
  | cons x xs ih => simp [ih]

/-- What each single access keeps, all of them keep. -/
theorem servedBefore_keeps {α : Type} (g : State → α) (hg : ∀ x s, g (makeAccess x s) = g s) (r : Requester)
    (xs : List RamAccess) (s : State) : g (servedBefore r xs s) = g s := by
  induction xs generalizing s with
  | nil => rfl
  | cons x xs ih => rw [servedBefore_cons, ih, hg]

@[simp] theorem servedBefore_klr (r : Requester) (xs : List RamAccess) (s : State) : (servedBefore r xs s).klr = s.klr :=
  servedBefore_keeps State.klr (fun _ _ => makeAccess_klr _ _) r xs s
@[simp] theorem servedBefore_taq (r : Requester) (xs : List RamAccess) (s : State) : (servedBefore r xs s).taq = s.taq :=
  servedBefore_keeps State.taq (fun _ _ => makeAccess_taq _ _) r xs s
@[simp] theorem servedBefore_lst (r : Requester) (xs : List RamAccess) (s : State) : (servedBefore r xs s).lst = s.lst :=
  servedBefore_keeps State.lst (fun _ _ => makeAccess_lst _ _) r xs s
@[simp] theorem servedBefore_esc (r : Requester) (xs : List RamAccess) (s : State) : (servedBefore r xs s).esc = s.esc :=
  servedBefore_keeps State.esc (fun _ _ => makeAccess_esc _ _) r xs s
@[simp] theorem servedBefore_settings (r : Requester) (xs : List RamAccess) (s : State) : (servedBefore r xs s).settings = s.settings :=
  servedBefore_keeps State.settings (fun _ _ => makeAccess_settings _ _) r xs s
@[simp] theorem servedBefore_pmc (r : Requester) (xs : List RamAccess) (s : State) : (servedBefore r xs s).pmc = s.pmc :=
  servedBefore_keeps State.pmc (fun _ _ => makeAccess_pmc _ _) r xs s
@[simp] theorem servedBefore_cmm (r : Requester) (xs : List RamAccess) (s : State) : (servedBefore r xs s).cmm = s.cmm :=
  servedBefore_keeps State.cmm (fun _ _ => makeAccess_cmm _ _) r xs s
@[simp] theorem servedBefore_spc (r : Requester) (xs : List RamAccess) (s : State) : (servedBefore r xs s).spc = s.spc :=
  servedBefore_keeps State.spc (fun _ _ => makeAccess_spc _ _) r xs s
@[simp] theorem servedBefore_dsp (r : Requester) (xs : List RamAccess) (s : State) : (servedBefore r xs s).dsp = s.dsp :=
  servedBefore_keeps State.dsp (fun _ _ => makeAccess_dsp _ _) r xs s
@[simp] theorem servedBefore_tmb (r : Requester) (xs : List RamAccess) (s : State) : (servedBefore r xs s).tmb = s.tmb :=
  servedBefore_keeps State.tmb (fun _ _ => makeAccess_tmb _ _) r xs s
@[simp] theorem servedBefore_pending (r : Requester) (xs : List RamAccess) (s : State) : (servedBefore r xs s).pending = s.pending :=
  servedBefore_keeps State.pending (fun _ _ => makeAccess_pending _ _) r xs s

@[simp] theorem afterTraffic_klr (r : Requester) (s : State) : (afterTraffic r s).klr = s.klr :=
  (servedBefore_klr _ _ _).trans rfl
@[simp] theorem afterTraffic_taq (r : Requester) (s : State) : (afterTraffic r s).taq = s.taq :=
  (servedBefore_taq _ _ _).trans rfl
@[simp] theorem afterTraffic_lst (r : Requester) (s : State) : (afterTraffic r s).lst = s.lst :=
  (servedBefore_lst _ _ _).trans rfl
@[simp] theorem afterTraffic_esc (r : Requester) (s : State) : (afterTraffic r s).esc = s.esc :=
  (servedBefore_esc _ _ _).trans rfl
@[simp] theorem afterTraffic_settings (r : Requester) (s : State) : (afterTraffic r s).settings = s.settings :=
  (servedBefore_settings _ _ _).trans rfl
@[simp] theorem afterTraffic_pmc (r : Requester) (s : State) : (afterTraffic r s).pmc = s.pmc :=
  (servedBefore_pmc _ _ _).trans rfl
@[simp] theorem afterTraffic_cmm (r : Requester) (s : State) : (afterTraffic r s).cmm = s.cmm :=
  (servedBefore_cmm _ _ _).trans rfl
@[simp] theorem afterTraffic_spc (r : Requester) (s : State) : (afterTraffic r s).spc = s.spc :=
  (servedBefore_spc _ _ _).trans rfl
@[simp] theorem afterTraffic_dsp (r : Requester) (s : State) : (afterTraffic r s).dsp = s.dsp :=
  (servedBefore_dsp _ _ _).trans rfl
@[simp] theorem afterTraffic_tmb (r : Requester) (s : State) : (afterTraffic r s).tmb = s.tmb :=
  (servedBefore_tmb _ _ _).trans rfl
@[simp] theorem afterTraffic_pending (r : Requester) (s : State) : (afterTraffic r s).pending = s.pending :=
  (servedBefore_pending _ _ _).trans rfl

@[simp] theorem atAccess_klr (r : Requester) (s : State) (n : Nat) : (atAccess r s n).klr = s.klr :=
  servedBefore_klr _ _ _
@[simp] theorem atAccess_taq (r : Requester) (s : State) (n : Nat) : (atAccess r s n).taq = s.taq :=
  servedBefore_taq _ _ _
@[simp] theorem atAccess_lst (r : Requester) (s : State) (n : Nat) : (atAccess r s n).lst = s.lst :=
  servedBefore_lst _ _ _
@[simp] theorem atAccess_esc (r : Requester) (s : State) (n : Nat) : (atAccess r s n).esc = s.esc :=
  servedBefore_esc _ _ _
@[simp] theorem atAccess_settings (r : Requester) (s : State) (n : Nat) : (atAccess r s n).settings = s.settings :=
  servedBefore_settings _ _ _
@[simp] theorem atAccess_pmc (r : Requester) (s : State) (n : Nat) : (atAccess r s n).pmc = s.pmc :=
  servedBefore_pmc _ _ _
@[simp] theorem atAccess_cmm (r : Requester) (s : State) (n : Nat) : (atAccess r s n).cmm = s.cmm :=
  servedBefore_cmm _ _ _
@[simp] theorem atAccess_spc (r : Requester) (s : State) (n : Nat) : (atAccess r s n).spc = s.spc :=
  servedBefore_spc _ _ _
@[simp] theorem atAccess_dsp (r : Requester) (s : State) (n : Nat) : (atAccess r s n).dsp = s.dsp :=
  servedBefore_dsp _ _ _
@[simp] theorem atAccess_tmb (r : Requester) (s : State) (n : Nat) : (atAccess r s n).tmb = s.tmb :=
  servedBefore_tmb _ _ _
@[simp] theorem atAccess_pending (r : Requester) (s : State) (n : Nat) : (atAccess r s n).pending = s.pending :=
  servedBefore_pending _ _ _

/-- The port's accesses may change HPA's answer and nothing else of HPA. -/
theorem servedBefore_hpa (r : Requester) (xs : List RamAccess) (s : State) :
    (servedBefore r xs s).hpa = { s.hpa with hostData := (servedBefore r xs s).hpa.hostData } := by
  induction xs generalizing s with
  | nil => rfl
  | cons x xs ih => rw [servedBefore_cons, ih, makeAccess_hpa]

theorem afterTraffic_hpa (r : Requester) (s : State) :
    (afterTraffic r s).hpa = { s.hpa with coming := [], hostData := (afterTraffic r s).hpa.hostData } := by
  rw [afterTraffic, servedBefore_hpa]
  rfl

/-- With no host access to come every access finds the state the work began in. -/
theorem atAccess_none (r : Requester) (s : State) (n : Nat) (h : s.hpa.coming = []) : atAccess r s n = s := by
  simp [atAccess, comeBy, h]

/-- And the work's end leaves that state as it is. -/
theorem afterTraffic_none (r : Requester) (s : State) (h : s.hpa.coming = []) : afterTraffic r s = s := by
  obtain ⟨⟨_, _, _, _, _, _, _, _⟩, _⟩ := s
  simp_all [afterTraffic, State.withHpa]

theorem servedBefore_wf (r : Requester) (xs : List RamAccess) (s : State) (h : Memory.wf s.ram = true) :
    Memory.wf (servedBefore r xs s).ram = true := by
  induction xs generalizing s with
  | nil => exact h
  | cons x xs ih => exact servedBefore_cons r x xs s ▸ ih _ (makeAccess_wf x s h)

theorem afterTraffic_wf (r : Requester) (s : State) (h : Memory.wf s.ram = true) :
    Memory.wf (afterTraffic r s).ram = true := servedBefore_wf _ _ (s.withHpa { s.hpa with coming := [] }) h

theorem atAccess_wf (r : Requester) (s : State) (n : Nat) (h : Memory.wf s.ram = true) :
    Memory.wf (atAccess r s n).ram = true := servedBefore_wf _ _ _ h

/-- Accesses that write no byte of a record leave it as it is. -/
theorem servedBefore_keeps_record (r : Requester) (record : Nat) (xs : List RamAccess) (s : State) (i : Nat) (hi : i < 8)
    (hx : ∀ x ∈ xs, writesRecord record x = false) :
    ramByte (servedBefore r xs s) (record + i) = ramByte s (record + i) := by
  induction xs generalizing s with
  | nil => rfl
  | cons x xs ih =>
    rw [servedBefore_cons, ih _ (fun y hy => hx y (List.mem_cons_of_mem _ hy)),
      makeAccess_keeps_record _ _ _ _ hi (hx x List.mem_cons_self)]

/-- Well-formed accesses one after another are HOST_RAM_ACCESS commands one after another. -/
theorem servedBefore_run (r : Requester) (xs : List RamAccess) (s : State) (h : ∀ x ∈ xs, x.wellFormed = true)
    (run : Instr → State → Host.Outcome State Fault Refusal) (hr : ∀ x s, run (.hostRamAccess x) s = execHostRamAccess x s) :
    carryOut run (xs.map (fun x => .hostRamAccess (.now x))) s = .next (servedBefore r xs s) := by
  induction xs generalizing s with
  | nil => rfl
  | cons x xs ih =>
    rw [List.map_cons, carryOut, hr, makeAccess_exec x s (h x List.mem_cons_self), servedBefore_cons]
    exact ih _ (fun y hy => h y (List.mem_cons_of_mem _ hy))

/-! ### The hold of a fetch (R137) -/

/-- Each of a fetch's reads finds the record as its first read found it (R137, R146). -/
theorem atFetch_record (record : Nat) (s : State) (n i : Nat) (hi : i < 8) :
    ramByte (atFetch record s n) (record + i) = ramByte (atAccess .klr s 0) (record + i) := by
  rw [atFetch, comeByFetch, servedBefore_append]
  refine servedBefore_keeps_record _ _ _ _ _ hi fun x hx => ?_
  obtain ⟨c, hc, rfl⟩ := List.mem_map.mp hx
  have hall := List.all_takeWhile (p := fun c : ComingAccess => decide (c.turn ≤ n) && !writesRecord record c.access)
    (l := s.hpa.coming.dropWhile (fun c => decide (c.turn ≤ 0)))
  simpa using (Bool.and_eq_true_iff.mp (List.all_eq_true.mp hall c hc)).2

/-! ### The search of the User Word List (R117, R121) -/

/-- The access that reads a slot's length, when the search of the slots before it began with access n. -/
def accessOfSlot (look : Nat → State) (list : Half) (folds : List Nat) : List Nat → Nat → Nat
  | [], n => n
  | i :: is, n => accessOfSlot look list folds is (if slotMatches (look n) list folds i then n + 1 + folds.length else n + 1)

/-- Slot i holds the word, as the accesses from number n on find it. -/
def slotHolds (look : Nat → State) (list : Half) (folds : List Nat) (i n : Nat) : Bool :=
  slotMatches (look n) list folds i && slotEquals look list folds i (n + 1)

/-- A search finds an equal slot exactly when some slot holds the word at its own accesses. -/
theorem searchSlots_equal_iff (look : Nat → State) (list : Half) (folds : List Nat) (is : List Nat) (n : Nat)
    (noted : Option Nat) :
    searchSlots look list folds is n noted = .equalSlot ↔
      ∃ before i after, is = before ++ i :: after ∧ slotHolds look list folds i (accessOfSlot look list folds before n) = true := by
  induction is generalizing n noted with
  | nil => cases noted <;> simp [searchSlots]
  | cons j is ih =>
    have key : (∃ before i after, j :: is = before ++ i :: after ∧
          slotHolds look list folds i (accessOfSlot look list folds before n) = true) ↔
        slotHolds look list folds j n = true ∨ ∃ before i after, is = before ++ i :: after ∧
          slotHolds look list folds i (accessOfSlot look list folds before
            (if slotMatches (look n) list folds j then n + 1 + folds.length else n + 1)) = true := by
      constructor
      · rintro ⟨before, i, after, h, hs⟩
        cases before with
        | nil =>
          obtain ⟨rfl, -⟩ := List.cons.inj h
          exact Or.inl hs
        | cons b before =>
          obtain ⟨hb, ht⟩ := List.cons.inj h
          rw [← hb] at hs
          exact Or.inr ⟨before, i, after, ht, hs⟩
      · rintro (h | ⟨before, i, after, h, hs⟩)
        · exact ⟨[], j, is, rfl, h⟩
        · exact ⟨j :: before, i, after, by rw [h]; rfl, hs⟩
    rw [key, searchSlots]
    by_cases hm : slotMatches (look n) list folds j <;>
      by_cases hq : slotEquals look list folds j (n + 1) <;> simp [hm, hq, slotHolds, ih]

end Sys2Proof.Machine
end

