-- ==== Sys2Proof/Laws/Transition.lean ====
section
/-! SUPPORT. What a step of the part can do: the form transition gives every meaning, and DSP's recompute at its end. -/
namespace Sys2Proof.Machine

/-! ### The recompute -/

@[simp] theorem refresh_sent (s : State) : (refresh s).dsp.sent = s.dsp.sent := rfl
@[simp] theorem refresh_blinkOn (s : State) : (refresh s).dsp.blinkOn = s.dsp.blinkOn := rfl
@[simp] theorem refresh_message (s : State) : (refresh s).dsp.message = s.dsp.message := rfl
@[simp] theorem refresh_linkMode (s : State) : (refresh s).dsp.linkMode = s.dsp.linkMode := rfl
@[simp] theorem refresh_linkPtr (s : State) : (refresh s).dsp.linkPtr = s.dsp.linkPtr := rfl
@[simp] theorem refresh_transfer (s : State) : (refresh s).dsp.transfer = s.dsp.transfer := rfl
@[simp] theorem refresh_tone (s : State) : (refresh s).dsp.tone = s.dsp.tone := rfl
@[simp] theorem refresh_windowStart (s : State) : (refresh s).dsp.windowStart = windowOf s := rfl

/-- After the recompute the image is that of the sources as they stand (R124). -/
theorem refresh_image (s : State) : (refresh s).dsp.image = imageOf (refresh s) := rfl

/-! ### transition -/

/-- A step that is ready, with the RESET pin not asserted, has its effect. -/
theorem transition_ready (s : State) (ready : Bool) (after : State → State) (h : s.hpa.resetPin = false) (hr : ready = true) :
    transition s ready after = .next (refresh (after s)) := by
  simp [transition, h, hr]

/-- A step that is not ready changes nothing. -/
theorem transition_not_ready (s : State) (ready : Bool) (after : State → State) (hr : ready = false) :
    transition s ready after = .next s := by
  simp [transition, hr]

/-- While the RESET pin is asserted no step of the part changes anything (R156). -/
theorem transition_held (s : State) (ready : Bool) (after : State → State) (h : s.hpa.resetPin = true) :
    transition s ready after = .next s := by
  simp [transition, h]

/-- All that transition can answer. -/
theorem transition_cases (s t : State) (ready : Bool) (after : State → State) (h : transition s ready after = .next t) :
    t = s ∨ (s.hpa.resetPin = false ∧ ready = true ∧ t = refresh (after s)) := by
  unfold transition at h
  split at h
  · rename_i hc
    rw [Bool.and_eq_true, Bool.not_eq_true'] at hc
    exact Or.inr ⟨hc.1, hc.2, by injection h with h; exact h.symm⟩
  · exact Or.inl (by injection h with h; exact h.symm)

/-- transition always answers a next state. -/
theorem transition_next (s : State) (ready : Bool) (after : State → State) : ∃ t, transition s ready after = .next t := by
  unfold transition
  split
  · exact ⟨_, rfl⟩
  · exact ⟨_, rfl⟩

/-- What the effect and the recompute keep, transition keeps. -/
theorem transition_keeps (P : State → Prop) (s t : State) (ready : Bool) (after : State → State)
    (h : transition s ready after = .next t) (hs : P s)
    (ha : s.hpa.resetPin = false → ready = true → P (refresh (after s))) : P t := by
  rcases transition_cases s t ready after h with h | h
  · exact h ▸ hs
  · exact h.2.2 ▸ ha h.1 h.2.1

/-! ### converting and continuing -/

/-- The conversion of an action at the head, when its conditions hold (R6). -/
theorem converting_head (k : KeyKind) (s : State) (w : Bool) (f : Action → State → State) (a : Action) (rest : List Action)
    (h : s.taq = a :: rest) :
    converting k s w f = transition s (decide (a.kind = k) && convertible s && w) (f a) := by
  unfold converting
  rw [h]

/-- With TAQ empty nothing converts (R50). -/
theorem converting_empty (k : KeyKind) (s : State) (w : Bool) (f : Action → State → State) (h : s.taq = []) :
    converting k s w f = .next s := by
  unfold converting
  rw [h]

theorem continuing_head (s : State) (r : Bool) (f : Action → State → State) (a : Action) (rest : List Action)
    (h : s.taq = a :: rest) : continuing s r f = transition s r (f a) := by
  unfold continuing
  rw [h]

theorem continuing_empty (s : State) (r : Bool) (f : Action → State → State) (h : s.taq = []) :
    continuing s r f = .next s := by
  unfold continuing
  rw [h]

theorem converting_next (k : KeyKind) (s : State) (w : Bool) (f : Action → State → State) :
    ∃ t, converting k s w f = .next t := by
  unfold converting
  split
  · exact ⟨_, rfl⟩
  · exact transition_next _ _ _

theorem continuing_next (s : State) (r : Bool) (f : Action → State → State) : ∃ t, continuing s r f = .next t := by
  unfold continuing
  split
  · exact ⟨_, rfl⟩
  · exact transition_next _ _ _

end Sys2Proof.Machine
end

