-- ==== Sys2Proof/Tests/Slice0.lean ====
section
/-! SUPPORT. Our own tests: ill-formed commands refused by the check, figures the spec works out, and for every statement with hypotheses a small state that meets them. -/
namespace Sys2Proof.Tests

-- One theorem after another: checked all at once, these many kernel evaluations ask for more threads than there is memory for.
set_option Elab.async false

open Sys2Proof Sys2Proof.Machine

/-! ### Well-formedness, one ill-formed command for each check -/

theorem test_read_byte_outside_ram : (Instr.hostRamAccess (.now (.readByte 0x8000))).wellFormed = false := by decide
theorem test_read_word_odd : (Instr.hostRamAccess (.now (.readWord 0x7FFF))).wellFormed = false := by decide
theorem test_read_word_outside_ram : (Instr.hostRamAccess (.now (.readWord 0x8000))).wellFormed = false := by decide
theorem test_write_byte_outside_ram : (Instr.hostRamAccess (.now (.writeByte 0xFFFF 1))).wellFormed = false := by decide
theorem test_write_word_odd : (Instr.hostRamAccess (.now (.writeWord 0x0001 1))).wellFormed = false := by decide
theorem test_write_word_outside_ram : (Instr.hostRamAccess (.now (.writeWord 0x9000 1))).wellFormed = false := by decide
theorem test_slip_count_too_large : (Instr.wheelSlip 96 0).wellFormed = false := by decide
theorem test_slip_carriage_too_far : (Instr.wheelSlip 0 3360).wellFormed = false := by decide
theorem test_rehome_carriage_too_far : (Instr.wheelRehomeFail 3360).wellFormed = false := by decide
theorem test_cover_carriage_too_far : (Instr.coverSample true 3360 0).wellFormed = false := by decide
theorem test_cover_too_many_half_lines : (Instr.coverSample true 0 17).wellFormed = false := by decide
theorem test_follow_too_far : (Instr.idleFollow 3360).wellFormed = false := by decide
theorem test_coming_ill_formed : [Instr.hostRamAccess (.during 0 (.readByte 0x8000)), .hostRamAccess (.during 1 (.readWord 3)),
    .hostRamAccess (.during 2 (.writeByte 0x9000 1)), .hostRamAccess (.during 3 (.writeWord 0x7FFF 0))].map Instr.wellFormed =
      [false, false, false, false] := by decide
theorem test_bounds_well_formed :
    (Instr.hostRamAccess (.now (.readByte 0x7FFF))).wellFormed = true ∧ (Instr.hostRamAccess (.now (.writeWord 0x7FFE 0))).wellFormed = true ∧
    (Instr.hostRamAccess (.during 9 (.writeWord 0x7FFE 0))).wellFormed = true ∧ (Instr.wheelSlip 95 3359).wellFormed = true ∧ (Instr.coverSample true 3359 16).wellFormed = true := by decide

/-- The rows of the table give no bits, so no word spells a command (notes/assumptions/29.md). -/
theorem test_no_word_spells_a_command : decodeTableWord 16 0x1234 = none := by decide

/-! ### Figures the spec works out -/

/-- The image R136 spells out is the image of the sources after reset. -/
theorem test_reset_image_is_the_sources : imageOf State.reset = State.reset.dsp.image := by decide +kernel

/-- R64's table of seeks: distance, direction and turn. -/
theorem test_seek_table :
    [(90, 5), (10, 70), (20, 68), (68, 20), (0, 95), (40, 40)].map
      (fun cp => (seekDistance cp.1 cp.2, seekClockwise cp.1 cp.2, seekTurn cp.1 cp.2)) =
    [(11, true, 11), (60, false, 36), (48, true, 48), (48, true, 48), (95, false, 1), (0, true, 0)] := by decide

/-- R64's last column: which of these seeks pass count 0. -/
theorem test_seek_passes_zero :
    [(90, 5), (10, 70), (20, 68), (68, 20), (0, 95), (40, 40)].map (fun cp => onSeekPath cp.1 cp.2 0) =
    [true, true, false, true, false, false] := by decide

/-- Section 6.5: the words THE, ON and IT'S through the hash at order 16. -/
theorem test_hash_figures :
    [[20, 8, 5], [15, 14], [9, 20, 27, 19]].map (fun w =>
      (wordHash w, wordWeight w, probeStep w, probe w 16 0, probe w 16 1, probe w 16 2)) =
    [(19473, 51, 171, 19473, 19644, 19815), (479, 43, 41, 479, 520, 561),
     (288195, 206, 2053, 26051, 28104, 30157)] := by decide +kernel

/-- Section 6.5: the probes of THE at order 12. -/
theorem test_hash_order_twelve : [0, 1, 2].map (probe [20, 8, 5] 12) = [3089, 3260, 3431] := by decide +kernel

/-- A cell of no account, for the arithmetic of chapter 2. -/
def cell : Cell :=
  { id := 0, code := 0x61, blank := .no, petal := 10, wheel := 0, hammerClass := 1, passes := 1, fold := 1, start := 0
    fBefore := 0, advance := 24, fAfter := 0, state := .printed, mark := .unmarked, wordNo := 0, origin := 0x300
    reopened := false }

/-- Section 2.3: m, e and l on a proportional wheel of unit 3.5 steps. -/
theorem test_proportional_advances :
    let m := placeCell { step := 480, frac := 0 } 280 cell
    let e := placeCell m.ending 224 cell
    let l := placeCell e.ending 168 cell
    [m, e, l].map (fun c => (c.advance, c.fAfter)) = [(17, 8), (14, 8), (11, 0)] ∧
      l.ending = { step := 522, frac := 0 } := by decide

/-- Section 2.3: four characters at a custom pitch of 300 sixteenths. -/
theorem test_custom_pitch_advances :
    let a := placeCell { step := 600, frac := 0 } 300 cell
    let b := placeCell a.ending 300 cell
    let c := placeCell b.ending 300 cell
    let d := placeCell c.ending 300 cell
    [a, b, c, d].map (fun c => (c.advance, c.fAfter)) = [(18, 12), (19, 8), (19, 4), (19, 0)] ∧
      d.ending = { step := 675, frac := 0 } := by decide

/-- Section 2.10: E = 29 over six spaces gains 5, 5, 5, 5, 5 and 4. -/
theorem test_justify_gains :
    let word := fun (n : Nat) => [{ cell with start := n, advance := 300 }]
    let space := fun (n : Nat) => [{ cell with start := n, blank := .space, advance := 20 }]
    let line := word 151 ++ space 451 ++ word 471 ++ space 771 ++ word 791 ++ space 1091 ++ word 1111 ++ space 1411 ++
      word 1431 ++ space 1731 ++ word 1751 ++ space 2051 ++ word 2071
    (justify 2400 20 line).map (fun cs => ((cs.filter (fun c => decide (c.blank = .space))).map Cell.advance, lineEndStep cs)) =
      some ([25, 25, 25, 25, 25, 24], 2400) := by decide +kernel

/-- Section 2.10: a line of one word, a line at the margin and a line too short are RAGGED; 80 steps over two spaces are not. -/
theorem test_ragged_cases :
    let word := fun (n len : Nat) => [{ cell with start := n, advance := len }]
    let space := fun (n : Nat) => [{ cell with start := n, blank := .space, advance := 20 }]
    justify 2400 20 (word 480 1420) = none ∧
    justify 2400 20 (word 480 900 ++ space 1380 ++ word 1400 1000) = none ∧
    justify 2400 20 (word 480 900 ++ space 1380 ++ word 1400 959) = none ∧
    (justify 2400 20 (word 480 900 ++ space 1380 ++ word 1400 500 ++ space 1900 ++ word 1920 400)).isSome = true := by
  decide +kernel

/-- R40's table of columns. -/
theorem test_display_columns :
    [(480, 479), (480, 480), (480, 503), (480, 504), (480, 522), (480, 2400), (0, 3359)].map (fun lp =>
      column { State.reset with
        esc := { Esc.reset with lm := lp.1 }, lst := { Lst.reset with step := lp.2 } }) = [0, 1, 1, 2, 2, 81, 140] := by
  decide +kernel

/-- Section 7.2: the window following the cursor. -/
theorem test_window_follow :
    [windowFollow 29 0, windowFollow 30 0, windowFollow 37 8, windowFollow 38 8, windowFollow 15 16, windowFollow 0 8] =
      [0, 8, 8, 16, 8, 0] := by decide

/-- Section 7.2: an overstruck cell is hidden by the newer one at its start, and the cursor stands after the last. -/
theorem test_visual_row :
    rowImage true (visualRow [{ cell with id := 0, code := 0x41, start := 480 },
      { cell with id := 1, code := 0x5F, start := 480, state := .queued },
      { cell with id := 2, code := 0x63, start := 500, state := .queued }]) 520 =
    [{ code := 0x5F, attr := .unstruck }, { code := 0x63, attr := .unstruck }, { code := 0x20, attr := .cursor }] := by decide

/-- R138: the host port is granted first, the mirror last. -/
theorem test_grant_order :
    grantNext [.mirror, .spc, .ntw] = some .ntw ∧ grantNext [.klr, .hostPort, .lst] = some .hostPort ∧ grantNext [] = none := by
  decide

/-! ### Small states -/

/-- A part that is homed and idle: RUN 1, Anchor Page 1, a wheel table whose code 0x61 is petal 10 and whose code 0x21 is
off the wheel, the lists of SPC, the ring. -/
def idle : State := refresh
  { State.reset with
    hpa := { Hpa.reset with command := 1, anchorPage := 1 }
    klr := { Klr.reset with ran := true, keyHead := some 0x200, settingsPtr := some 0x300 }
    lst := { Lst.reset with wheelTable := some 0x1000 }
    pmc := { Pmc.reset with
      state := .ready, carriage := some 0, wheel := some 0, wheelTrusted := true, everReady := true, motors := .on }
    spc := { Spc.reset with filterBase := some 0x2000, filterOrder := some 10, userList := some 0x3000 }
    ntw := { Ntw.reset with noticeBase := some 0x400 }
    tmb := { Tmb.reset with rest := some 0 }
    ram := [(0x1084, 96), (0x1184, 10), (0x1185, 5), (0x1186, 1), (0x1187, 1)] }

/-- An action of TAQ. -/
def act (k : KeyKind) (code : Byte) (arg : Half) : Action := { kind := k, code := code, arg := arg, origin := 0x200, seq := 7 }

/-- A state with one action waiting. -/
def waiting (k : KeyKind) (code : Byte) (arg : Half) (s : State) : State := s.withTaq [act k code arg]

/-- A state in stall: two notices in the holding queue. -/
def stall (s : State) : State :=
  let n : Notice := { kind := .markReached, ragged := false, detail := 0, origin := 0, tag := 0, position := 0 }
  post n (post n s)

/-- A state with the mode bits of a code. -/
def inMode (bits : Byte) (s : State) : State := s.withLst { s.lst with mode := ModeBits.ofByte bits }

/-- A state with cells, the counter past their identities, and the point at a step. -/
def withCells (cs : List Cell) (p : Nat) (s : State) : State :=
  s.withLst { s.lst with cells := cs, nextId := 1000, step := p }

/-- A state with operations on the Work List. -/
def withWork (ops : List Operation) (s : State) : State := s.withPmc { s.pmc with work := ops }

/-- An operation. -/
def op (started : Bool) (struck : Nat) (b : OpBody) : Operation := { body := b, started := started, struck := struck, fed := 0 }

/-- A Work List without room. -/
def fullWork : List Operation := List.replicate 16 (op false 0 (.feed 1))

/-- A line without room. -/
def fullLine : List Cell := (List.range 160).map (fun n => { cell with id := n })

/-- A composed line: one character from 0 to 24, its origin the step 0. -/
def composed (s : State) : State :=
  let t := withCells [{ cell with state := .composed }] 24 (inMode 1 s)
  t.withLst { t.lst with cursor := 1, composeOrigin := some { step := 0, frac := 0 } }

/-- The reader in a state, at a record at an address. -/
def reader (st : ReaderState) (at_ : Half) (s : State) : State := s.withKlr { s.klr with state := st, current := at_ }

/-- A latched record. -/
def latched (kind code : Byte) (arg : Half) (s : State) : State :=
  s.withKlr { s.klr with latched := { kind := kind, code := code, arg := arg } }

/-- A TAQ of so many actions. -/
def queueOf (n : Nat) (s : State) : State := s.withTaq (List.replicate n (act .mark 0 0))

/-- PMC in a state. -/
def mech (m : MechState) (s : State) : State := s.withPmc { s.pmc with state := m }

/-- The RAM with other contents. -/
def ramOf (m : Memory) (s : State) : State := s.withRam m


/-! ### What each command does, on one small state -/

/-- The point of a state that a command answers. -/
def after (o : Host.Outcome State Fault Refusal) (p : State → Bool) : Bool :=
  match o with
  | .next t => p t
  | .fault _ | .refused _ => false

/-- A CHAR a at step 0 in P10 becomes a QUEUED cell from 0 to 24 with its PRINT at energy 1. -/
theorem test_convert_char : after (exec .convertChar (waiting .char 0x61 0 idle)) (fun t =>
    decide (t.lst.cells.map (fun c => (c.petal, c.start, c.advance, c.state)) = [(10, 0, 24, .queued)]) &&
    decide (t.pmc.work.map Operation.body = [.print 0 0 10 1]) && decide (point t = { step := 24, frac := 0 }) &&
    decide (t.taq = [])) = true := by decide +kernel

/-- A CHAR off the wheel is refused with NOT_ON_WHEEL and no tone. -/
theorem test_convert_char_not_on_wheel : after (exec .convertChar (waiting .char 0x21 0 idle)) (fun t =>
    decide (t.ntw.holding.map Notice.bytes = [[1, 1, 0x00, 0x02, 0, 0, 7, 0]]) && decide (t.dsp.tone = none)) = true := by
  decide +kernel

/-- A TAB to the stop 240 (R9). -/
theorem test_convert_tab : after (exec .convertTab (waiting .tab 0 0 (idle.withEsc { idle.esc with tabs := [240] }))) (fun t =>
    decide (t.lst.cells.map (fun c => (c.blank, c.start, c.advance, c.state)) = [(.tab, 0, 240, .printed)]) &&
    decide (point t = { step := 240, frac := 0 })) = true := by decide +kernel

/-- R10's figure: LM 480, the point (483, 4/16), a step of 320 is limited at (480, 0). -/
theorem test_backspace_limited_at_margin :
    backStep [] 480 320 { step := 483, frac := 4 } = { step := 480, frac := 0 } ∧
    backStep [] 480 320 { step := 300, frac := 4 } = { step := 280, frac := 4 } := by decide

/-- A FORWARD past the limit stops there (R11). -/
theorem test_forward_stops_at_limit :
    forwardPoint 3359 384 { step := 3350, frac := 0 } = { step := 3359, frac := 0 } ∧
    forwardPoint 3359 384 { step := 3335, frac := 0 } = { step := 3359, frac := 0 } ∧
    forwardPoint 3359 384 { step := 3334, frac := 1 } = { step := 3358, frac := 1 } := by decide

/-- R20 step 5: a feed of -3 from tag 1 gives tag 65534. -/
theorem test_line_close_by_index : after (exec .lineClose (setConv (.draining false)
      (waiting .index 0 0xFFFD (idle.withLst { idle.lst with platenTag := 1 })))) (fun t =>
    decide (t.lst.platenTag = 65534) && decide (t.pmc.work.map Operation.body = [.feed (-3)]) &&
    decide (t.ntw.holding.map Notice.bytes = [[2, 0, 0x00, 0x02, 1, 0, 0, 0]])) = true := by decide +kernel

/-- A line-mode insertion places the cell at the cursor and nothing on the Work List (R15). -/
theorem test_line_mode_insertion : after (exec .convertChar (waiting .char 0x61 0 (composed idle))) (fun t =>
    decide (t.lst.cells.map (fun c => (c.start, c.advance, c.state)) = [(0, 24, .composed), (24, 24, .composed)]) &&
    decide (t.lst.cursor = 2) && decide (t.pmc.work = []) && decide (point t = { step := 48, frac := 0 })) = true := by
  decide +kernel

/-- A release puts the composed cell on the Work List (R18). -/
theorem test_line_release_cell : after (exec .lineReleaseCell (setConv (.releasing true)
      (waiting .ret 0 0 (composed idle)))) (fun t =>
    decide (t.lst.cells.map Cell.state = [.queued]) && decide (t.pmc.work.length = 1) &&
    decide (t.lst.conv = .draining true)) = true := by decide +kernel

/-- An ERASE step over a printed cell places a LIFT of the class energy and boost (R92). -/
theorem test_erase_step_places_lift : after (exec .eraseStep (setConv (.erasing
      { mode := .count, remaining := 1, phase := .blanks, acted := false })
      (waiting .erase 0 1 (withCells [cell] 24 idle)))) (fun t =>
    decide (t.lst.cells.map Cell.state = [.liftPending]) && decide (t.pmc.work.map Operation.body = [.lift 0 0 10 1 1]) &&
    decide (point t = { step := 0, frac := 0 }) && decide (t.taq = [])) = true := by decide +kernel

/-- A PRINT taken up with ribbon present enters MOVING; the carriage at its start has arrived (R63, R64). -/
theorem test_take_up_print : after (exec (.operationTakeUp { ribbon := true, tape := true })
      (withWork [op false 0 (.print 0 0 10 5)] idle)) (fun t =>
    decide (t.pmc.state = .moving) && t.pmc.carriageArrived && !t.pmc.wheelArrived) = true := by decide +kernel

/-- A PRINT taken up at ribbon end is not started: HELD with RIBBON_END (R63). -/
theorem test_take_up_at_ribbon_end : after (exec (.operationTakeUp { ribbon := false, tape := true })
      (withWork [op false 0 (.print 0 0 10 5)] idle)) (fun t =>
    decide (t.pmc.state = .held) && t.pmc.ribbonHold && decide (t.pmc.work.map Operation.started = [false]) &&
    decide (t.ntw.holding.map Notice.kind = [.ribbonEnd]) && decide (t.hpa.event = 0x10)) = true := by decide +kernel

/-- Section 4.3: the seek from 80 to 30 finds no mark at count 0, a first slip. -/
theorem test_first_slip : after (exec (.wheelSlip 0 0) (withWork [op true 0 (.print 0 0 30 5)]
      ((mech .moving idle).withPmc { (mech .moving idle).pmc with wheel := some 80 }))) (fun t =>
    decide (t.pmc.retry = 1) && t.pmc.slipHoming && decide (t.pmc.wheel = some 0) && !t.pmc.wheelTrusted) = true := by
  decide +kernel

/-- The cover opened between the passes of a LIFT parks with the operation (R73). -/
theorem test_cover_opens_between_passes : after (exec (.coverSample true 0 0) (withWork [op true 1 (.lift 0 0 10 9 2)]
      ((mech .striking idle).withPmc { (mech .striking idle).pmc with lastSample := some true }))) (fun t =>
    decide (t.pmc.state = .parked) && decide (t.pmc.parked = some .operation) && t.pmc.coverOpen &&
    decide (t.pmc.work.map Operation.struck = [1]) && decide (t.hpa.event = 0x08)) = true := by decide +kernel

/-- A FEED's end moves the platen counter (R79). -/
theorem test_feed_complete : after (exec .feedComplete (withWork [op true 0 (.feed (-3))] (mech .feeding idle))) (fun t =>
    decide (t.pmc.platen = 65533) && decide (t.pmc.state = .ready) && decide (t.pmc.work = [])) = true := by decide +kernel

/-- The part's addresses wrap at 32768 (R141): a record's last byte may lie at 0x0001. -/
theorem test_ram_addresses_wrap :
    ramByte (writeByte 32769 5 State.reset) 1 = 5 ∧ ramHalf (writeHalf 0x7FFF 0x1234 State.reset) 0x7FFF = 0x1234 ∧
    (writeHalf 0x7FFF 0x1234 State.reset).ram = [(0, 0x12), (0x7FFF, 0x34)] := by decide +kernel

/-- Writing what an unlisted address reads as takes the entry away. -/
theorem test_memory_canonical : Memory.write 3 0 [(3, 5), (9, 1)] = [(9, 1)] ∧ Memory.write 4 2 [(3, 5), (9, 1)] =
    [(3, 5), (4, 2), (9, 1)] ∧ Memory.wf [(3, 5), (9, 1)] = true ∧ Memory.wf [(9, 1), (3, 5)] = false ∧
    Memory.wf [(3, 0)] = false := by decide +kernel

/-- A Settings Record of zeros: the clamped fields are those with a lower bound above 0, in index order (R143). -/
theorem test_clamps_of_a_zero_record :
    (clampsOf (readSettings State.reset 0)).map (fun c => (c.index, c.used)) =
      [(1, 1), (3, 128), (4, 32), (6, 240), (9, 1), (10, 1), (11, 1), (12, 1), (15, 1)] := by decide +kernel

/-- A first notice in the ring: its entry at NoticeBase, NoticeProduced, the NOTICE event (R151). -/
theorem test_notice_write : after (exec .noticeWrite (post
      { kind := .lineDone, ragged := true, detail := 2, origin := 0x208, tag := 0x0102, position := 0x0304 } idle)) (fun t =>
    decide ((List.range 8).map (fun i => ramByte t (0x400 + i)) = [0x82, 2, 0x08, 2, 2, 1, 4, 3]) &&
    decide (ramHalf t 0x10E = 1) && decide (t.hpa.event = 1) && decide (t.ntw.holding = [])) = true := by decide +kernel

/-- The commands of the tick to 20 ms (R154, R138): the link, then the list poll, the mirror after it. -/
theorem test_marks_of_a_tick : after (step (idle.withTmb { idle.tmb with ticks := 19, settle := some 1 })) (fun t =>
    decide (t.pending = [.settleExpiry, .displayTransferBegin, .displayTransferComplete, .listPoll, .mirrorTick])) = true := by
  decide +kernel

/-- A settle begun between two ticks outlasts four of them, so that 4 ms pass (R155), and falls due at the fifth; one begun on a
tick falls due at the fourth tick from there. -/
theorem test_settle_runs_its_time :
    let s := fun (on : Bool) => startSettle ((idle.withPmc { idle.pmc with carriageArrived := true, wheelArrived := true }).withTmb
      { idle.tmb with onTick := on })
    let due := fun (on : Bool) (n : Nat) => after (step ((s on).withTmb
      { (s on).tmb with onTick := false, settle := (s on).tmb.settle.map (fun k => k - n) })) (fun t =>
      decide (Instr.settleExpiry ∈ t.pending))
    due false 3 = false ∧ due false 4 = true ∧ due true 2 = false ∧ due true 3 = true := by decide +kernel

/-- A tick and the moment after it (R154): the first idle step is the tick, the next leaves it. -/
theorem test_tick_and_after :
    after (step idle) (fun t => decide (t.tmb.ticks = 1) && t.tmb.onTick &&
      after (step (t.withPending [])) (fun u => decide (u.tmb.ticks = 1) && !u.tmb.onTick && decide (u.pending = []))) = true := by
  decide +kernel

/-- A state with host accesses to come, each with its turn. -/
def hostComes (l : List (Nat × RamAccess)) (s : State) : State :=
  s.withHpa { s.hpa with coming := l.map (fun c => { turn := c.1, access := c.2 }) }

/-- A host that rewrites a wheel entry between its two reads (R144): the petal is the old one, the hammer class the new one. -/
theorem test_char_half_old_half_new : after (exec .convertChar
      (hostComes [(1, .writeByte 0x1184 20), (1, .writeByte 0x1186 3)] (waiting .char 0x61 0 idle))) (fun t =>
    decide (t.lst.cells.map (fun c => (c.petal, c.hammerClass)) = [(10, 3)]) && decide (ramByte t 0x1184 = 20) &&
    decide (t.hpa.coming = [])) = true := by decide +kernel

/-- Each byte of a message as the RAM holds it at that read (R130). -/
theorem test_show_byte_by_byte : after (exec .convertShow
      (hostComes [(0, .writeByte 0x4001 0x42), (1, .writeByte 0x4000 0x41), (1, .writeByte 0x4002 0x43)]
        (waiting .showText 3 0x4000 (idle.withRam (Memory.write 0x4000 0x7A idle.ram))))) (fun t =>
    decide (t.dsp.message.map (fun m => m.take 4) = some [0x7A, 0x42, 0x43, 0x20])) = true := by decide +kernel

/-- A host write of the record during its fetch is held, and one elsewhere behind it waits too (R137). -/
theorem test_fetch_holds_the_record :
    let s := (reader .fetch 0x208 idle).withRam (Memory.write 0x20A 1 (Memory.write 0x20B 5 (Memory.write 0x20E 9 idle.ram)))
    let s := hostComes [(1, .writeByte 0x300 7), (1, .writeWord 0x20E 0x0404), (1, .writeByte 0x301 8), (2, .readByte 0)] s
    after (exec .keyRecordFetch s) (fun t =>
      decide (t.klr.latched = { kind := 5, code := 0, arg := 9 }) && decide (ramHalf t 0x20E = 0x0404) &&
      decide (ramHalf t 0x300 = 0x0807)) = true ∧
    [0, 1, 2].map (fun n => comeByFetch 0x208 n s.hpa.coming) = [[], [.writeByte 0x300 7], [.writeByte 0x300 7]] := by
  decide +kernel

/-- Custody 0 ends the fetch: the host writes it the moment after, and what comes later falls after HeldRecord (R146, R138). -/
theorem test_fetch_ends_among_host_writes :
    let s := hostComes [(1, .writeByte 0x20A 1), (1, .writeByte 0x12 7), (2, .writeByte 0x13 9)] (reader .fetch 0x208 idle)
    after (exec .keyRecordFetch s) (fun t => decide (t.klr.state = .atEnd) && decide (ramByte t 0x20A = 1) &&
      decide (ramByte t (anchorBase s + 18) = lowByte (heldAddress s)) && decide (t.hpa.coming = [])) = true := by decide +kernel

/-- A word is found in a slot that the host fills during the check, when the search has not yet come to it; and not in one
filled behind the search (R115, R117). -/
theorem test_host_writes_during_a_check :
    let s := idle.withSpc { idle.spc with
      queue := [{ number := 1, folds := [1, 2], start := 0, origin := 0x200, tag := 0, late := false }] }
    let fill := fun (n : Nat) => [(n, RamAccess.writeByte 0x301B 1), (n, .writeByte 0x301C 2), (n, .writeByte 0x301A 2)]
    let verdict := fun (w : List (Nat × RamAccess)) => after (exec .checkBegin (hostComes w s)) (fun t =>
      decide (t.spc.flight.map Flight.verdict = some .good))
    verdict (fill 2) = true ∧ verdict (fill 3) = false ∧ verdict [] = false := by decide +kernel

/-- A host access to come is noted behind the others, and a reset keeps it (R157, notes/assumptions/31.md, 42.md). -/
theorem test_access_to_come :
    let s := hostComes [(4, .readByte 0)] idle
    after (exec (.hostRamAccess (.during 1 (.writeByte 5 6))) s) (fun t =>
      decide (t = hostComes [(4, .readByte 0), (1, .writeByte 5 6)] idle) &&
      after (exec .softReset t) (fun u => decide (u.hpa.coming = t.hpa.coming))) = true ∧
    exec (.hostRamAccess (.during 1 (.readWord 5))) s = .fault .oddWordAddress := ⟨by decide +kernel, rfl⟩

/-- A space after two letters with SPELLING ON ends their run (R106, R109): word 1, PENDING, queued. -/
theorem test_space_ends_a_run :
    let s := inMode 0x10 (withCells [{ cell with id := 0 }, { cell with id := 1, start := 24, fold := 2 }] 48 idle)
    after (exec .convertChar (waiting .char 0x20 0 (setOpenRun [0, 1] s))) (fun t =>
      decide (t.lst.cells.map (fun c => (c.mark, c.wordNo)) = [(.pending, 1), (.pending, 1), (.unmarked, 0)]) &&
      decide (t.spc.queue = [{ number := 1, folds := [1, 2], start := 0, origin := 0x300, tag := 0, late := false }]) &&
      decide (t.spc.openRun = [])) = true := by decide +kernel

/-- The cover opened in the first homing's move to the margin stops the carriage where it stands (R73, R161). -/
theorem test_cover_opens_in_move_to_margin : after (exec (.coverSample true 100 0) ((mech .homing idle).withPmc
      { (mech .homing idle).pmc with lastSample := some true, homing := some { kind := .first, part := .toMargin 480 } })) (fun t =>
    decide (t.pmc.parked = some (.homing .first)) && decide (t.pmc.carriage = some 100) && decide (t.pmc.motors = .off)) = true := by
  decide +kernel

/-! ### States that meet the hypotheses of the statements -/

/-- A command that is seen to answer a next state answers one. -/
theorem answers {o : Host.Outcome State Fault Refusal} (h : after o (fun _ => true) = true) : ∃ t, o = .next t := by
  cases o with
  | next t => exact ⟨t, rfl⟩
  | fault f => exact absurd h (by simp [after])
  | refused r => exact absurd h (by simp [after])

/-- The conditions of HeadConverts from their tests. -/
theorem heads {k : KeyKind} {a : Action} {rest : List Action} {s : State}
    (h : (decide (s.hpa.resetPin = false) && decide (s.taq = a :: rest) && decide (a.kind = k) && s.pmc.everReady &&
      decide (s.ntw.holding.length < 2) && decide (s.lst.conv = .idle)) = true) : HeadConverts k a rest s := by
  simp only [Bool.and_eq_true, decide_eq_true_eq] at h
  exact ⟨h.1.1.1.1.1, h.1.1.1.1.2, h.1.1.1.2, h.1.1.2, h.1.2, h.2⟩

/-- A state on a tick. -/
def atTick (s : State) : State := s.withTmb { s.tmb with onTick := true }

/-- StepRunsFrontCommand. -/
theorem test_meets_front_command : (idle.withPending [.wake, .flush]).pending = .wake :: [.flush] := rfl

/-- IdleStepLetsTimePass: on a tick and between two, the pin released and asserted; a pause that counts and one that is frozen; the rest timer counting and
with the rest time 0. -/
theorem test_meets_idle_step :
    let rest := idle.withSettings { idle.settings with restSeconds := 1 }
    let frozen := (idle.withPmc { idle.pmc with pauseFrozen := true }).withTmb { idle.tmb with pause := some 4 }
    ((atTick idle).pending = [] ∧ (atTick idle).hpa.resetPin = false ∧ (atTick idle).tmb.onTick = true) ∧
    (idle.pending = [] ∧ idle.hpa.resetPin = false ∧ idle.tmb.onTick = false ∧ idle.pmc.pauseFrozen = false ∧ ¬ RestCounts idle) ∧
    (frozen.pending = [] ∧ frozen.hpa.resetPin = false ∧ frozen.pmc.pauseFrozen = true) ∧
    (rest.pending = [] ∧ rest.hpa.resetPin = false ∧ RestCounts rest) ∧
    ((assertReset idle).pending = [] ∧ (assertReset idle).hpa.resetPin = true) := by
  unfold RestCounts; decide +kernel

/-- CommandsAnswerAndKeepQueue: both clauses. -/
theorem test_meets_commands_answer : (∀ x, Instr.wake ≠ .hostRamAccess x) ∧ ∃ t, exec .wake idle = .next t :=
  ⟨fun _ h => Instr.noConfusion h, answers (by decide +kernel)⟩

/-- AssertedResetHoldsThePart, at the first and the last register. -/
theorem test_meets_asserted_reset : (assertReset idle).hpa.resetPin = true ∧ Instr.wake ≠ .resetAssert ∧
    Instr.wake ≠ .resetRelease ∧ (∀ x, Instr.wake ≠ .hostRamAccess x) ∧ 0 < 4 ∧ 3 < 4 :=
  ⟨rfl, by decide, by decide, fun _ h => Instr.noConfusion h, by decide, by decide⟩

/-- A part with a CHAR waiting and its conversion commanded. -/
def typing : State := (waiting .char 0x61 0 idle).withPending [.convertChar]

/-- A part striking the cell of a PRINT, with the hammer's fire commanded. -/
def striking : State := refresh
  (((mech .striking (withWork [op true 0 (.print 0 0 10 5)] (withCells [{ cell with state := .queued }] 24 idle))).withPending
    [.hammerFire]).withPmc { (mech .striking (withWork [op true 0 (.print 0 0 10 5)] idle)).pmc with wheel := some 10 })

/-- MemoryCanonicalKept and ImageCurrentKept. -/
theorem test_meets_memory_and_image : MemoryCanonical typing ∧ ImageCurrent typing ∧ ∃ t, step typing = .next t := by
  refine ⟨?_, ?_, answers ?_⟩
  · unfold MemoryCanonical; decide +kernel
  · unfold ImageCurrent; decide +kernel
  · decide +kernel

/-- QueueAndLineBoundsKept, at the bounds of TAQ, the Work List, the Line Store and the pending add requests; and with a notice
held and a check in flight. -/
theorem test_meets_bounds :
    let q : AddRequest := { folds := [1, 2], origin := 0x200, seq := 1, finding := none }
    let r := idle.withSpc { idle.spc with requests := [q, q] }
    let s := ((withWork fullWork (withCells fullLine 24 (queueOf 64 r)))).withPending [.wake]
    (∃ t, step s = .next t) ∧ QueuesBounded s ∧ NoticesBounded (stall s) ∧ RequestsBounded s ∧ LinesBounded s := by
  refine ⟨answers ?_, ?_, ⟨⟨by decide +kernel, by decide +kernel, by decide +kernel⟩, by decide +kernel, by decide +kernel⟩, ?_, ?_⟩
  · decide +kernel
  · unfold QueuesBounded; decide +kernel
  · unfold RequestsBounded; decide +kernel
  · exact ⟨by decide +kernel, by decide +kernel, by decide +kernel, fun t => (Nat.zero_le 160 : (entriesOf t []).length ≤ 160)⟩

/-- CellIdentitiesKept: a composed line; an ERASE walk over a line with its ERASE at the head; a QUEUED cell and its PRINT. -/
theorem test_meets_identities :
    let s := (composed idle).withPending [.convertChar]
    let w := (setConv (.erasing { mode := .count, remaining := 1, phase := .blanks, acted := false })
      (waiting .erase 0 1 (withCells [cell] 24 idle))).withPending [.eraseStep]
    (CellsIdentified s ∧ ComposedTail s ∧ CellsTied s ∧ ConversionAtHead s ∧ ∃ t, step s = .next t) ∧
    (ConversionAtHead w ∧ WalkAtHead w ∧ ∃ t, step w = .next t) ∧ CellsTied striking := by
  refine ⟨⟨⟨by decide +kernel, by decide +kernel, fun _ _ h _ => absurd h List.not_mem_nil, fun _ => by decide +kernel⟩,
    ⟨by decide +kernel, fun _ => by decide +kernel⟩, ⟨?_, fun _ _ h _ => absurd h List.not_mem_nil⟩, Or.inl (by decide +kernel),
    answers (by decide +kernel)⟩,
    ⟨Or.inr ⟨_, _, rfl, by decide +kernel⟩, fun _ _ => ⟨_, _, rfl, rfl⟩, answers (by decide +kernel)⟩, ⟨?_, ?_⟩⟩
  · intro c hc
    rw [List.mem_singleton.mp hc]
    rfl
  · intro c hc
    rw [List.mem_singleton.mp hc]
    exact ⟨rfl, by decide +kernel⟩
  · intro o id ho h
    rw [List.mem_singleton.mp ho] at h
    exact ⟨_, List.mem_singleton.mpr rfl, Option.some.inj h⟩

/-- EscRangesKept: a composed line with a stop at the last step. -/
theorem test_meets_esc_ranges :
    let s := (composed (idle.withEsc { idle.esc with tabs := [3359], frac := 0 })).withPending [.wake]
    EscLimits s ∧ CellsIdentified s ∧ ComposedTail s ∧ EscInRange s ∧ LineInRange s ∧ ∃ t, step s = .next t := by
  have l : ∀ s : State, s.esc = { idle.esc with tabs := [3359], frac := 0 } → EscLimits s := by
    intro s h
    unfold EscLimits
    rw [h]
    decide +kernel
  refine ⟨l _ rfl, ⟨by decide +kernel, by decide +kernel, fun _ _ h _ => absurd h List.not_mem_nil, fun _ => by decide +kernel⟩,
    ⟨by decide +kernel, fun _ => by decide +kernel⟩, ⟨l _ rfl, by decide +kernel, by decide +kernel⟩,
    ⟨⟨by decide +kernel, by decide +kernel⟩, by decide +kernel, fun _ h => absurd h List.not_mem_nil, ?_, by decide +kernel,
      fun _ => by decide +kernel⟩, answers (by decide +kernel)⟩
  intro o h
  rw [← Option.some.inj h]
  exact ⟨by decide, by decide⟩

/-- RegisterBitsKept, DisplayShapeKept. -/
theorem test_meets_registers_display : RegistersClean typing ∧ DisplayShaped typing ∧
    WindowFollows typing ∧ (∃ t, step typing = .next t) ∧ ComingServable (hostComes [(1, .readWord 0x7FFE)] typing) ∧
    ∃ t, step (hostComes [(1, .readWord 0x7FFE)] typing) = .next t := by
  refine ⟨?_, ?_, ?_, answers (by decide +kernel), ?_, answers (by decide +kernel)⟩
  · unfold RegistersClean; decide +kernel
  · unfold DisplayShaped; exact ⟨by decide +kernel, by decide +kernel, by decide +kernel, by decide +kernel, trivial⟩
  · unfold WindowFollows; decide +kernel
  · unfold ComingServable; decide +kernel

/-- A part about to strike a second time, its spacing over 30 ticks after a fire on a tick, 31 after one between two ticks. -/
def again (on : Bool) : State :=
  (striking.withPmc { striking.pmc with lastFire := some { tick := 5, onTick := on, energy := 5 } }).withTmb
    { striking.tmb with onTick := true, ticks := if on then 35 else 36 }

/-- StrikesStayAimed: the fires spaced, with a spacing that runs, and with a fire that follows another made on a tick and one made
between two. -/
theorem test_meets_fires :
    let runs := ((again false).withTmb { (again false).tmb with ticks := 5, spacing := some 31 }).withPending [.wake]
    (FiresSpaced runs ∧ ∃ t, step runs = .next t) ∧ ∀ on, FiresSpaced (again on) ∧ ∃ t, step (again on) = .next t ∧
      (again on).pmc.lastFire = some { tick := 5, onTick := on, energy := 5 } ∧
      t.pmc.lastFire = some { tick := if on then 35 else 36, onTick := true, energy := 5 } := by
  refine ⟨⟨?_, answers (by decide +kernel)⟩, fun on => ⟨?_, ?_⟩⟩
  · intro f h
    rw [← Option.some.inj h]
    decide +kernel
  · intro f h
    rw [← Option.some.inj h]
    cases on <;> decide +kernel
  · obtain ⟨t, ht⟩ : ∃ t, step (again on) = .next t := answers (by cases on <;> decide +kernel)
    have hf : after (step (again on)) (fun t => decide (t.pmc.lastFire =
        some { tick := if on then 35 else 36, onTick := true, energy := 5 })) = true := by cases on <;> decide +kernel
    rw [ht] at hf
    exact ⟨t, ht, rfl, of_decide_eq_true hf⟩

/-- The figures of chapters 4 and 10: a fire on the tick 30 or 100 has its spacing over at the tick 60 or 130 (R66, R155). -/
theorem test_spacing_of_a_fire_on_a_tick :
    [30, 100].map (fun n => after (exec .hammerFire ((atTick striking).withTmb { (atTick striking).tmb with ticks := n })) (fun t =>
      decide (t.tmb.spacing = some 30) && decide (t.pmc.lastFire.map Fire.spacingEnds = some (n + 30)))) = [true, true] ∧
    Fire.spacingEnds { tick := 30, onTick := true, energy := 1 } = 60 := by decide +kernel

/-- HoldStatesKept (READY without a reason, HELD with QUIET) and StrikesStayAimed (STRIKING). -/
theorem test_meets_holds_and_strikes :
    (HoldsRight typing ∧ ∃ t, step typing = .next t) ∧
    (HoldsRight ((setQuiet true (mech .held idle)).withPending [.quietClear]) ∧
      ∃ t, step ((setQuiet true (mech .held idle)).withPending [.quietClear]) = .next t) ∧
    (StrikesAimed striking ∧ ∃ t, step striking = .next t) := by
  refine ⟨⟨?_, answers (by decide +kernel)⟩, ⟨?_, answers (by decide +kernel)⟩, ⟨?_, answers (by decide +kernel)⟩⟩
  · unfold HoldsRight; decide +kernel
  · unfold HoldsRight; decide +kernel
  · exact ⟨by decide +kernel, by decide +kernel, by decide +kernel, by decide +kernel⟩

/-- PowerOnResetEffect, SoftResetEffect, RegisterWritesTakeEffect: the pin asserted, released; RUN 0, RUN 1. -/
theorem test_meets_resets_and_writes : (assertReset idle).hpa.resetPin = true ∧ Powered idle ∧ runOn idle = true ∧
    Powered State.reset ∧ runOn State.reset = false := by unfold Powered; decide +kernel

/-- RegisterWritesTakeEffect: a byte with SOFT_RESET, one without; the last register's two bytes of a word, and an offset with none. -/
theorem test_meets_command_bytes : (0x20 : Byte).getLsbD 5 = true ∧ (0x1F : Byte).getLsbD 5 = false ∧ 4 ≤ 4 ∧
    readRegister idle 2 = some 0 ∧ readRegister idle 3 = some 1 := by decide +kernel

/-- R139: every bit at once, none, and SOFT_RESET over the others. -/
theorem test_command_events :
    commandEvents 0x1F = [.runStart, .wake, .flush, .quietSet, .rehome] ∧ commandEvents 0 = [.runStop, .quietClear] ∧
    commandEvents 0xFF = [.softReset] ∧ registerWordEvents 2 0x0305 = [.eventEnableWrite 5, .anchorPageWrite 3] ∧
    readRegisterWord idle 0 = some 0x0001 ∧ registerEvents 4 7 = [] := by decide +kernel

/-- HostReadsAnswerTheRam, at the last byte and the last word. -/
theorem test_meets_host_reads : (0x7FFF : Half).toNat < 32768 ∧ (0x7FFE : Half).toNat < 32768 ∧
    (0x7FFE : Half).toNat % 2 = 0 := by decide

/-- HostWritesChangeOnlyTheirBytes: NoticeTaken of idle lies at 0x110 and 0x111. -/
theorem test_meets_host_writes :
    let s := idle.withNtw { idle.ntw with ringWaiting := true }
    MemoryCanonical s ∧ s.ntw.ringWaiting = true ∧ TouchesNoticeTaken s 0x110 1 ∧ TouchesNoticeTaken s 0x111 1 ∧
    TouchesNoticeTaken s 0x110 2 ∧ ¬ TouchesNoticeTaken s 0x10F 1 ∧ ¬ TouchesNoticeTaken s 0x112 1 ∧
    ¬ TouchesNoticeTaken s 0x10E 2 ∧ ¬ TouchesNoticeTaken s 0x112 2 := by
  unfold MemoryCanonical TouchesNoticeTaken; decide +kernel

/-- HostAccessStopsOnlyOutside: the first address outside, the last odd word, the last good byte, now
and to come. -/
theorem test_meets_host_stops : 32768 ≤ (accessAddr (HostAccess.now (.readByte 0x8000)).ram).toNat ∧
    ((accessAddr (HostAccess.during 1 (.writeWord 0x7FFF 1)).ram).toNat < 32768 ∧
      isWordAccess (HostAccess.during 1 (.writeWord 0x7FFF 1)).ram = true ∧
      (accessAddr (HostAccess.during 1 (.writeWord 0x7FFF 1)).ram).toNat % 2 = 1) ∧
    (Instr.hostRamAccess (.now (.readByte 0x7FFF))).wellFormed = true ∧
    (Instr.hostRamAccess (.during 0 (.readByte 0x7FFF))).wellFormed = true := by decide

/-- FirstRunStartsThePart: the cover closed and open. -/
theorem test_meets_first_run :
    let o := State.reset.withPmc { Pmc.reset with coverOpen := true }
    (MemoryCanonical State.reset ∧ Powered State.reset ∧ runOn State.reset = false ∧ State.reset.klr.ran = false ∧
      State.reset.pmc.coverOpen = false) ∧
    (MemoryCanonical o ∧ Powered o ∧ runOn o = false ∧ o.klr.ran = false ∧ o.pmc.coverOpen = true) := by
  unfold MemoryCanonical Powered; decide +kernel

/-- LaterRunRereadsTheSettings: RUN 1, and RUN 0 after an earlier RUN. -/
theorem test_meets_later_run :
    let o := setRun false idle
    (MemoryCanonical idle ∧ Powered idle ∧ runOn idle = true) ∧
    (MemoryCanonical o ∧ Powered o ∧ runOn o = false ∧ o.klr.ran = true) := by
  unfold MemoryCanonical Powered; decide +kernel

/-- SettingsAreClampedAndReported: a clamp due, with and without a stall. -/
theorem test_meets_clamp_due :
    let s := idle.withKlr { idle.klr with clampDue := [{ index := 1, used := 1 }] }
    Powered s ∧ s.klr.clampDue = { index := 1, used := 1 } :: [] ∧ NoStall s ∧ Powered (stall s) ∧
      (stall s).klr.clampDue = { index := 1, used := 1 } :: [] ∧ ¬ NoStall (stall s) := by
  unfold Powered NoStall; decide +kernel

/-- RunStopByReaderState: RUN 0; RUN 1 in each state of the reader, in TAKING before and after the return. -/
theorem test_meets_run_stop :
    let r := fun st => reader st 0x208 idle
    let due := (r .taking).withKlr { (r .taking).klr with linkDue := true }
    (MemoryCanonical idle ∧ Powered State.reset ∧ runOn State.reset = false) ∧
    ([.stopped, .fetch, .taking, .heldFull, .atEnd, .bad].all (fun st => runOn (r st) && decide ((r st).klr.state = st)) = true) ∧
    (r .taking).klr.linkDue = false ∧ (due.klr.state = .taking ∧ due.klr.linkDue = true ∧ runOn due = true) := by
  unfold MemoryCanonical Powered; decide +kernel

/-- FetchLatchesOrEnds: a stall, custody 0, custody 1, and custody written by the host just before the first read. -/
theorem test_meets_fetch :
    let s := reader .fetch 0x208 idle
    let c := ramOf [(0x20A, 1)] s
    (MemoryCanonical s ∧ Powered (stall s) ∧ (stall s).klr.state = .fetch ∧ ¬ NoStall (stall s)) ∧
    (Powered s ∧ s.klr.state = .fetch ∧ NoStall s ∧ ramByte s (s.klr.current.toNat + 2) = 0) ∧
    (MemoryCanonical c ∧ Powered c ∧ c.klr.state = .fetch ∧ NoStall c ∧ ramByte c (c.klr.current.toNat + 2) ≠ 0) ∧
    (ComingServable (hostComes [(0, .writeByte 0x20A 1)] s) ∧
      ramByte (atAccess .klr (hostComes [(0, .writeByte 0x20A 1)] s) 0) (s.klr.current.toNat + 2) ≠ 0) := by
  unfold ComingServable MemoryCanonical Powered NoStall; decide +kernel

/-- RecordTakeOutcomes: a record refused; accepted with TAQ at 64, at 63 in a stall, at 63. -/
theorem test_meets_record_take :
    let s := latched 1 0x61 0 (reader .taking 0x208 idle)
    let bad := latched 0 0x61 0 (reader .taking 0x208 idle)
    (MemoryCanonical s ∧ Powered s ∧ TakingOther bad ∧ bad.klr.pendingStop = false ∧
      validate bad.klr.latched = .error .badKind) ∧
    (TakingOther s ∧ s.klr.pendingStop = false ∧ validate s.klr.latched = .ok .char) ∧
    64 ≤ (queueOf 64 s).taq.length ∧ ((queueOf 63 s).taq.length < 64 ∧ NoStall (queueOf 63 s)) ∧
    ((queueOf 63 (stall s)).taq.length < 64 ∧ ¬ NoStall (queueOf 63 (stall s))) := by
  unfold MemoryCanonical Powered TakingOther NoStall; exact ⟨⟨by decide +kernel, by decide +kernel, by decide +kernel, rfl, rfl⟩,
    ⟨by decide +kernel, rfl, rfl⟩, by decide +kernel⟩

/-- TextByteByByte: a record refused; accepted with TAQ at 64, at 63 in a stall, at 63; a byte to come, and the last byte. -/
theorem test_meets_text_byte :
    let s := latched 2 2 0x280 (reader .taking 0x208 idle)
    let bad := latched 2 0 0x280 (reader .taking 0x208 idle)
    let last := s.withKlr { s.klr with offset := 1 }
    (MemoryCanonical s ∧ Powered s ∧ s.klr.state = .taking ∧ s.klr.linkDue = false ∧
      KeyKind.ofByte s.klr.latched.kind = some .text ∧ s.klr.pendingStop = false ∧
      s.klr.offset + 1 < s.klr.latched.code.toNat ∧ validate s.klr.latched = .ok .text) ∧
    (KeyKind.ofByte bad.klr.latched.kind = some .text ∧ bad.klr.pendingStop = false ∧
      validate bad.klr.latched = .error .badLength) ∧
    (last.klr.offset + 1 = last.klr.latched.code.toNat ∧ validate last.klr.latched = .ok .text) ∧
    64 ≤ (queueOf 64 s).taq.length ∧ ((queueOf 63 s).taq.length < 64 ∧ NoStall (queueOf 63 s)) ∧
    ((queueOf 63 (stall s)).taq.length < 64 ∧ ¬ NoStall (queueOf 63 (stall s))) := by
  unfold MemoryCanonical Powered NoStall
  exact ⟨⟨by decide +kernel, rfl, rfl, rfl, rfl, rfl, by decide +kernel, rfl⟩, ⟨rfl, rfl, rfl⟩, ⟨by decide +kernel, rfl⟩,
    by decide +kernel⟩

/-- HeldFullResumesTheTake: TAQ at 64; at 63 with and without a stall; a TEXT and another record. -/
theorem test_meets_held_full :
    let s := latched 2 2 0x280 (reader .heldFull 0x208 idle)
    let m := latched 1 0x61 0 (reader .heldFull 0x208 idle)
    (Powered s ∧ s.klr.state = .heldFull ∧ s.klr.linkDue = false) ∧ 64 ≤ (queueOf 64 s).taq.length ∧
    ((queueOf 63 (stall s)).taq.length < 64 ∧ ¬ NoStall (queueOf 63 (stall s))) ∧
    ((queueOf 63 s).taq.length < 64 ∧ NoStall (queueOf 63 s) ∧ KeyKind.ofByte s.klr.latched.kind = some .text) ∧
    (m.klr.state = .heldFull ∧ m.klr.linkDue = false ∧ KeyKind.ofByte m.klr.latched.kind ≠ some .text) := by
  unfold Powered NoStall; decide +kernel

/-- LinkRereadFollowsTheLink: a link 0, links 0x0204 and 0x8000 that are bad, the last good link 0x7FF8. -/
theorem test_meets_link_reread :
    let s := (reader .taking 0x208 idle).withKlr { (reader .taking 0x208 idle).klr with held := some 0x208, linkDue := true }
    let l := fun hi lo => ramOf ((if lo = 0 then [] else [(0x208, lo)]) ++ [(0x209, hi)]) s
    (MemoryCanonical s ∧ Powered s ∧ s.klr.state = .taking ∧ s.klr.linkDue = true ∧ s.klr.held = some 0x208) ∧
    ramHalf s (0x208 : Half).toNat = 0 ∧ (MemoryCanonical (l 2 4) ∧ BadValue (ramHalf (l 2 4) (0x208 : Half).toNat)) ∧
    (MemoryCanonical (l 0x80 0) ∧ BadValue (ramHalf (l 0x80 0) (0x208 : Half).toNat)) ∧
    (MemoryCanonical (l 0x7F 0xF8) ∧ ramHalf (l 0x7F 0xF8) (0x208 : Half).toNat ≠ 0 ∧
      ¬ BadValue (ramHalf (l 0x7F 0xF8) (0x208 : Half).toNat)) := by
  unfold MemoryCanonical Powered BadValue; decide +kernel

/-- WalkStartsWhereTheReaderStopped: a stall; KeyHead good and bad; a held record with its three links; no held record. -/
theorem test_meets_walk_start :
    let s := idle.withKlr { idle.klr with walkDue := true }
    let bad := s.withKlr { s.klr with keyHead := some 0x7FFC }
    let h := s.withKlr { s.klr with restart := .fromHeld, held := some 0x208 }
    let n := s.withKlr { s.klr with restart := .fromHeld }
    let l := fun lo => ramOf [(0x208, lo)] h
    (MemoryCanonical s ∧ Powered s ∧ s.klr.state = .stopped ∧ s.klr.walkDue = true ∧ NoStall s ∧ ¬ NoStall (stall s)) ∧
    (s.klr.restart = .fromHead ∧ s.klr.keyHead = some 0x200 ∧ ¬ BadValue 0x200) ∧
    (bad.klr.restart = .fromHead ∧ bad.klr.keyHead = some 0x7FFC ∧ BadValue 0x7FFC) ∧
    (h.klr.restart = .fromHeld ∧ h.klr.held = some 0x208 ∧ ramHalf h (0x208 : Half).toNat = 0) ∧
    (MemoryCanonical (l 4) ∧ BadValue (ramHalf (l 4) (0x208 : Half).toNat)) ∧
    (MemoryCanonical (l 8) ∧ ramHalf (l 8) (0x208 : Half).toNat ≠ 0 ∧ ¬ BadValue (ramHalf (l 8) (0x208 : Half).toNat)) ∧
    (n.klr.restart = .fromHeld ∧ n.klr.held = none) := by
  unfold MemoryCanonical Powered NoStall BadValue; decide +kernel

/-- WakeAndPollReread: in AT_END with a held record and its three links, with none; and in FETCH. -/
theorem test_meets_reread :
    let s := reader .atEnd 0x208 idle
    let h := s.withKlr { s.klr with held := some 0x208 }
    let l := fun lo => ramOf [(0x208, lo)] h
    (MemoryCanonical s ∧ Powered s ∧ s.ntw.ringWaiting = false ∧ s.hpa.portRequests = [] ∧ s.klr.state = .atEnd ∧
      s.klr.held = none) ∧
    (h.klr.held = some 0x208 ∧ ramHalf h (0x208 : Half).toNat = 0) ∧
    (MemoryCanonical (l 4) ∧ BadValue (ramHalf (l 4) (0x208 : Half).toNat)) ∧
    (ramHalf (l 8) (0x208 : Half).toNat ≠ 0 ∧ ¬ BadValue (ramHalf (l 8) (0x208 : Half).toNat)) ∧
    (reader .fetch 0x208 idle).klr.state ≠ .atEnd := by
  unfold MemoryCanonical Powered BadValue; decide +kernel

/-- FlushEmptiesTheQueue and PendingStopTakenAtReturn: the records a flush finds, and the ways of a return. -/
theorem test_meets_flush_and_pending_stop :
    let t := latched 2 1 0x280 (reader .taking 0x208 idle)
    let f := latched 1 0x61 0 (reader .heldFull 0x208 idle)
    let c := latched 1 0x61 0 (reader .taking 0x208 idle)
    let stop := fun (s : State) => s.withKlr { s.klr with pendingStop := true }
    (MemoryCanonical t ∧ Powered t ∧ t.klr.pendingStop = false ∧ KeyKind.ofByte t.klr.latched.kind = some .text ∧
      t.klr.state = .taking ∧ t.klr.linkDue = false) ∧
    (f.klr.pendingStop = false ∧ KeyKind.ofByte f.klr.latched.kind ≠ some .text ∧ f.klr.state = .heldFull) ∧
    idle.klr.state = .stopped ∧ TakingOther c ∧
    ((stop c).klr.pendingStop = true ∧ TakingOther (stop c) ∧ validate (stop c).klr.latched = .ok .char ∧
      (stop c).taq.length < 64 ∧ NoStall (stop c)) ∧
    ((stop t).klr.pendingStop = true ∧ validate (stop t).klr.latched = .ok .text ∧
      (stop t).klr.offset + 1 = (stop t).klr.latched.code.toNat ∧ (stop t).taq.length < 64 ∧ NoStall (stop t)) ∧
    ((stop f).klr.pendingStop = true ∧ (stop f).klr.state = .heldFull) ∧
    (TakingOther (stop (latched 0 0 0 c)) ∧ validate (stop (latched 0 0 0 c)).klr.latched = .error .badKind) := by
  unfold MemoryCanonical Powered TakingOther NoStall
  exact ⟨by decide +kernel, by decide +kernel, rfl, by decide +kernel, ⟨rfl, by decide +kernel, rfl, by decide +kernel, by decide +kernel⟩,
    ⟨rfl, rfl, by decide +kernel, by decide +kernel, by decide +kernel⟩, ⟨rfl, rfl⟩, by decide +kernel, rfl⟩

/-- PendingStopTakenAtReturn: a refused TEXT record. -/
theorem test_meets_refused_text_stop :
    let t := latched 2 0 0x280 (reader .taking 0x208 idle)
    let s := t.withKlr { t.klr with pendingStop := true }
    MemoryCanonical s ∧ Powered s ∧ s.klr.pendingStop = true ∧ KeyKind.ofByte s.klr.latched.kind = some .text ∧
      s.klr.state = .taking ∧ s.klr.linkDue = false ∧ validate s.klr.latched = .error .badLength := by
  unfold MemoryCanonical Powered
  exact ⟨by decide +kernel, rfl, rfl, rfl, rfl, rfl, rfl⟩

/-- FlushEmptiesTheQueue: a conversion that has begun in each of its forms, and forms that have not. -/
theorem test_meets_conversion_begun :
    let w := fun (acted : Bool) => Conversion.erasing { mode := .count, remaining := 1, phase := .blanks, acted := acted }
    (∀ c, c ∈ [Conversion.releasing true, .releasing false, .draining true, w true] → ConversionBegun (setConv c idle)) ∧
    ∀ c, c ∈ [Conversion.idle, .spelling, .draining false, w false] → ¬ ConversionBegun (setConv c idle) := by
  simp only [List.forall_mem_cons, List.not_mem_nil, false_imp_iff, implies_true, and_true]
  refine ⟨⟨Or.inl ⟨_, rfl⟩, Or.inl ⟨_, rfl⟩, Or.inr (Or.inl rfl), Or.inr (Or.inr ⟨_, rfl, rfl⟩)⟩, ?_, ?_, ?_, ?_⟩
  all_goals
    rintro (⟨_, h⟩ | h | ⟨_, h, ha⟩)
    all_goals first | (cases h; done) | (cases h; exact absurd ha (by decide))

/-- QuietAndRehomeByState: READY, HELD with and without another reason, FAULT with the cover closed and open. -/
theorem test_meets_quiet_and_rehome :
    let rib := (mech .held idle).withPmc { (mech .held idle).pmc with ribbonHold := true }
    let open_ := (mech .fault idle).withPmc { (mech .fault idle).pmc with coverOpen := true }
    Powered idle ∧ idle.pmc.state = .ready ∧ (mech .held idle).pmc.state = .held ∧ (mech .held idle).pmc.ribbonHold = false ∧
    (rib.pmc.state = .held ∧ rib.pmc.ribbonHold = true) ∧
    ((mech .fault idle).pmc.state = .fault ∧ (mech .fault idle).pmc.coverOpen = false ∧ NoStall (mech .fault idle)) ∧
    open_.pmc.coverOpen = true := by unfold Powered NoStall; decide +kernel

/-- A line-mode line of one composed cell with the actions given. -/
def composedHead (k : KeyKind) (code : Byte) (arg : Half) : State := waiting k code arg (composed idle)

/-- A stop found lies past the point. -/
theorem nextStop_after {tabs : List Nat} {p t : Nat} (h : nextStop tabs p = some t) : p < t := by
  unfold nextStop at h
  simpa using List.find?_some h

/-- What layOut answers is laid out. -/
theorem laidOut_of_layOut (tabs : List Nat) : ∀ (cs : List Cell) (pt : Point) (ds : List Cell),
    layOut tabs pt cs = some ds → LaidOut tabs pt cs ds
  | [], _, _, h => (Option.some.inj h).symm
  | c :: cs, pt, ds, h => by
    have rest : ∀ c', LaidFrom tabs pt c c' → (match layOut tabs c'.ending cs with
        | none => none
        | some cs' => some (c' :: cs')) = some ds → LaidOut tabs pt (c :: cs) ds := by
      intro c' hc h
      split at h
      · exact nomatch h
      · rename_i cs' hcs
        cases Option.some.inj h
        exact ⟨hc, laidOut_of_layOut tabs cs _ _ hcs⟩
    rw [layOut] at h
    cases hb : c.blank <;> simp only [hb] at h
    · exact rest _ ⟨rfl, by rw [hb]; exact ⟨rfl, rfl⟩⟩ h
    · exact rest _ ⟨rfl, by rw [hb]; exact ⟨rfl, rfl⟩⟩ h
    · cases ht : nextStop tabs pt.step with
      | none => rw [ht] at h; exact nomatch h
      | some t =>
        rw [ht] at h
        have hp := nextStop_after ht
        exact rest (placeTab pt t c) ⟨rfl, by
          rw [hb]
          exact ⟨by rw [ht]; simp only [placeTab]; congr 1; omega, rfl⟩⟩ h

/-- DirectModeMakesTheCell: a CHAR, with host accesses too, a space, a TAB whose stop is the limit itself. -/
theorem test_meets_direct_cells :
    let c := waiting .char 0x61 0 idle
    let h := hostComes [(1, .writeByte 0x7FFF 1), (1, .readWord 0x7FFE)] c
    let sp := waiting .char 0x20 0 idle
    let tb := waiting .tab 0 0 (idle.withEsc { idle.esc with tabs := [3359] })
    (c.lst.mode.line = false ∧ c.lst.cells.length < 160 ∧ HeadConverts .char (act .char 0x61 0) [] c ∧
      c.pmc.work.length < 16 ∧ (wheelEntry c 0x61).petal ≤ 95 ∧ WithinLimit c (endOf c (charProduct c 0x61))) ∧
    c.hpa.coming = [] ∧ (MemoryCanonical h ∧ h.hpa.coming ≠ [] ∧ ComingServable h ∧ HeadConverts .char (act .char 0x61 0) [] h) ∧
    (HeadConverts .char (act .char 0x20 0) [] sp ∧ ¬ InHotZone sp ∧ WithinLimit sp (endOf sp (spaceProduct sp))) ∧
    (HeadConverts .tab (act .tab 0 0) [] tb ∧ nextStop tb.esc.tabs tb.lst.step = some 3359 ∧
      WithinLimit tb { step := 3359, frac := 0 }) := by
  refine ⟨⟨rfl, by decide +kernel, heads (by decide +kernel), by decide +kernel, by decide +kernel, ?_⟩,
    by decide +kernel, ⟨by unfold MemoryCanonical; decide +kernel, by decide +kernel, by unfold ComingServable; decide +kernel,
      heads (by decide +kernel)⟩,
    ⟨heads (by decide +kernel), ?_, ?_⟩, ⟨heads (by decide +kernel), by decide +kernel, ?_⟩⟩
  all_goals (try unfold WithinLimit); (try unfold InHotZone); decide +kernel

/-- ActionsWaitAtTheHead: a head of another kind, no READY since reset, a stall, a conversion in progress; all sixteen
commands convert a kind. -/
theorem test_meets_waiting_actions :
    Converts .convertChar .char ∧ Converts (.convertErase { ribbon := true, tape := true }) .erase ∧
    (∀ a rest, (waiting .tab 0 0 idle).taq = a :: rest → a.kind ≠ .char) ∧ State.reset.pmc.everReady = false ∧
    ¬ NoStall (stall idle) ∧ (setConv .spelling idle).lst.conv ≠ .idle := by
  refine ⟨Or.inl (by decide), Or.inr ⟨rfl, _, rfl⟩, ?_, rfl, ?_, by decide +kernel⟩
  · intro a rest h
    cases h
    decide
  · unfold NoStall; decide +kernel

/-- DirectModeRefusals: no room, off the wheel, a full line, past the limit; a space in the hot zone, in a full line, past
the limit; a TAB with no stop, past the limit, in a full line. -/
theorem test_meets_direct_refusals :
    let c := waiting .char 0x61 0 idle
    let o := waiting .char 0x21 0 idle
    let sp := fun (s : State) => waiting .char 0x20 0 s
    let hot := inMode 8 ((idle.withEsc { idle.esc with hotZone := 480 }).withLst { idle.lst with step := 2879 })
    let edge := fun (s : State) => s.withLst { s.lst with step := 3336 }
    let tb := fun (tabs : List Nat) => waiting .tab 0 0 (idle.withEsc { idle.esc with tabs := tabs, rm := 240 })
    (HeadConverts .char (act .char 0x61 0) [] (withWork fullWork c) ∧ 16 ≤ (withWork fullWork c).pmc.work.length) ∧
    (HeadConverts .char (act .char 0x21 0) [] o ∧ o.hpa.coming = [] ∧ o.pmc.work.length < 16 ∧ 95 < (wheelEntry o 0x21).petal) ∧
    ((wheelEntry c 0x61).petal ≤ 95 ∧ 160 ≤ (withCells fullLine 24 c).lst.cells.length) ∧
    (HeadConverts .char (act .char 0x61 0) [] (edge c) ∧ (edge c).lst.cells.length < 160 ∧
      ¬ WithinLimit (edge c) (endOf (edge c) (charProduct (edge c) 0x61))) ∧
    (HeadConverts .char (act .char 0x20 0) [] (sp hot) ∧ (sp hot).hpa.coming = [] ∧ InHotZone (sp hot)) ∧
    (¬ InHotZone (sp idle) ∧ 160 ≤ (withCells fullLine 24 (sp idle)).lst.cells.length) ∧
    ¬ WithinLimit (edge (sp idle)) (endOf (edge (sp idle)) (spaceProduct (edge (sp idle)))) ∧
    (HeadConverts .tab (act .tab 0 0) [] (tb []) ∧ nextStop (tb []).esc.tabs (tb []).lst.step = none) ∧
    (nextStop (tb [241]).esc.tabs (tb [241]).lst.step = some 241 ∧ ¬ WithinLimit (tb [241]) { step := 241, frac := 0 }) ∧
    (WithinLimit (tb [240]) { step := 240, frac := 0 } ∧ 160 ≤ (withCells fullLine 24 (tb [240])).lst.cells.length) := by
  refine ⟨⟨heads (by decide +kernel), by decide +kernel⟩, ⟨heads (by decide +kernel), by decide +kernel, by decide +kernel, by decide +kernel⟩,
    by decide +kernel, ⟨heads (by decide +kernel), by decide +kernel, ?_⟩, ⟨heads (by decide +kernel), by decide +kernel, ?_⟩, ⟨?_, by decide +kernel⟩,
    ?_, ⟨heads (by decide +kernel), by decide +kernel⟩, ⟨by decide +kernel, ?_⟩, ⟨?_, by decide +kernel⟩⟩
  all_goals (try unfold WithinLimit); (try unfold InHotZone); decide +kernel

/-- A line whose layout reaches the state given holds when its end does not pass the limit. -/
theorem lineHolds_of {e : Esc} {release : Bool} {o : Point} {cs ds : List Cell} (h : layOut e.tabs o cs = some ds)
    (hp : (decide ((if release then 3359 else e.rm) < (endOfLine o ds).step) || (decide ((endOfLine o ds).step =
      if release then 3359 else e.rm) && decide (0 < (endOfLine o ds).frac))) = false) : LineHolds e release o cs ds := by
  refine ⟨laidOut_of_layOut _ _ _ _ h, ?_⟩
  rintro (h1 | ⟨h1, h2⟩)
  · rw [decide_eq_true h1] at hp
    exact nomatch hp
  · rw [decide_eq_true h1, decide_eq_true h2] at hp
    exact nomatch Bool.or_eq_false_iff.mp hp |>.2

/-- LineModeInsertion: off the wheel; a full line; a line that fails for want of a stop, one that fails at the margin, and one
that holds; with composed cells and without. -/
theorem test_meets_insertion :
    let c := composedHead .char 0x61 0
    let o := composedHead .char 0x21 0
    let tb := composedHead .tab 0 0
    let tabCell := { blankCellAt tb (act .tab 0 0) .tab .composed 0 0 with start := 0, fBefore := 0 }
    (c.lst.mode.line = true ∧ HeadConverts .char (act .char 0x61 0) [] c ∧ (wheelEntry c 0x61).petal ≤ 95 ∧
      c.lst.cells.length < 160 ∧ ∃ ds, LineHolds c.esc c.lst.mode.marginRelease (originOf c)
        ((composedCells c).take c.lst.cursor ++ charCellAt c (act .char 0x61 0) .composed :: (composedCells c).drop c.lst.cursor)
          ds) ∧
    LineFails { c.esc with rm := 240 } false { step := 200, frac := 0 } [{ cell with advance := 41 }] .margin ∧
    (composedCells c ≠ [] ∧ composedCells (inMode 0x11 idle) = [] ∧ (inMode 0x11 idle).lst.mode.line = true) ∧
    (o.lst.mode.line = true ∧ o.hpa.coming = [] ∧ HeadConverts .char (act .char 0x21 0) [] o ∧ 95 < (wheelEntry o 0x21).petal) ∧
    160 ≤ (withCells fullLine 24 c).lst.cells.length ∧
    (HeadConverts .tab (act .tab 0 0) [] tb ∧ tb.lst.mode.line = true ∧
      LineFails tb.esc tb.lst.mode.marginRelease (originOf tb)
        ((composedCells tb).take tb.lst.cursor ++ tabCell :: (composedCells tb).drop tb.lst.cursor) .noStop) := by
  refine ⟨⟨rfl, heads (by decide +kernel), by decide +kernel, by decide +kernel, ⟨_, lineHolds_of (by rfl) (by decide +kernel)⟩⟩,
    Or.inr ⟨_, laidOut_of_layOut _ _ _ _ rfl, List.cons_ne_nil _ _, Or.inl (by decide +kernel), rfl⟩, by decide +kernel,
    ⟨rfl, by decide +kernel, heads (by decide +kernel), by decide +kernel⟩, by decide +kernel, ⟨heads (by decide +kernel), rfl, Or.inl ⟨?_, rfl⟩⟩⟩
  rintro (_ | ⟨d, _ | ⟨d', ds⟩⟩) h
  · exact h
  · exact h.2
  · exact nomatch h.2.1.2.1.symm.trans (rfl : nextStop _ _ = none)

/-- BackspaceStepsAndCursorMoves, ForwardMovesOneSpaceProduct (below, at the limit) and RelocateMovesToTheGreatestEnd. -/
theorem test_meets_moves :
    let b := waiting .backspace 0 0 idle
    let f := waiting .forward 0 0 idle
    let e := waiting .forward 0 0 (idle.withLst { idle.lst with step := 3359 })
    let r := waiting .relocate 0 0 (withCells [cell] 0 idle)
    (HeadConverts .backspace (act .backspace 0 0) [] b ∧ composing b = false) ∧
    (HeadConverts .backspace (act .backspace 0 0) [] (composedHead .backspace 0 0) ∧ composing (composedHead .backspace 0 0) = true) ∧
    (HeadConverts .forward (act .forward 0 0) [] (composedHead .forward 0 0) ∧ composing (composedHead .forward 0 0) = true) ∧
    (HeadConverts .relocate (act .relocate 0 0) [] (composedHead .relocate 0 0) ∧ composing (composedHead .relocate 0 0) = true) ∧
    (HeadConverts .forward (act .forward 0 0) [] f ∧ composing f = false ∧ f.lst.step < limitOf f) ∧
    (HeadConverts .forward (act .forward 0 0) [] e ∧ composing e = false ∧ limitOf e ≤ e.lst.step) ∧
    (HeadConverts .relocate (act .relocate 0 0) [] r ∧ composing r = false ∧ cell ∈ r.lst.cells ∧ cell.state ≠ .composed) ∧
    (HeadConverts .forward (act .forward 0 0) [] (inMode 1 f) ∧ (inMode 1 f).lst.mode.line = true ∧ composing (inMode 1 f) = false) ∧
    (HeadConverts .relocate (act .relocate 0 0) [] (inMode 1 r) ∧ (inMode 1 r).lst.mode.line = true ∧
      composing (inMode 1 r) = false) ∧
    (∀ c, c ∈ (waiting .relocate 0 0 idle).lst.cells → c.state = .composed) := by
  exact ⟨⟨heads (by decide +kernel), by decide +kernel⟩, ⟨heads (by decide +kernel), by decide +kernel⟩,
    ⟨heads (by decide +kernel), by decide +kernel⟩, ⟨heads (by decide +kernel), by decide +kernel⟩,
    ⟨heads (by decide +kernel), by decide +kernel⟩, ⟨heads (by decide +kernel), by decide +kernel⟩,
    ⟨heads (by decide +kernel), by decide +kernel⟩, ⟨heads (by decide +kernel), by decide +kernel⟩,
    ⟨heads (by decide +kernel), by decide +kernel⟩, by decide +kernel⟩

/-- ReturnAndIndexBegin: direct and line mode; SPELLING ON and off; INDEX with and without composed cells. -/
theorem test_meets_return_and_index :
    let r := waiting .ret 0 0 idle
    let l := composedHead .ret 0 0
    let on := waiting .ret 0 0 (inMode 0x11 (composed idle))
    let x := waiting .index 0 0 idle
    (HeadConverts .ret (act .ret 0 0) [] r ∧ r.lst.mode.line = false) ∧
    (HeadConverts .ret (act .ret 0 0) [] l ∧ l.lst.mode.line = true ∧ l.lst.mode.spellingOn = false) ∧
    (HeadConverts .ret (act .ret 0 0) [] on ∧ on.lst.mode.line = true ∧ on.lst.mode.spellingOn = true) ∧
    (HeadConverts .index (act .index 0 0) [] (composedHead .index 0 0) ∧ composing (composedHead .index 0 0) = true) ∧
    (HeadConverts .index (act .index 0 0) [] x ∧ composing x = false) := by
  exact ⟨⟨heads (by decide +kernel), rfl⟩, ⟨heads (by decide +kernel), rfl, rfl⟩, ⟨heads (by decide +kernel), rfl, rfl⟩,
    ⟨heads (by decide +kernel), by decide +kernel⟩, ⟨heads (by decide +kernel), by decide +kernel⟩⟩

/-- SpellHoldRefusesOrReleases: a PENDING cell; a MISS cell held; no hold with cells kept and with none. -/
theorem test_meets_spell_hold :
    let s := setConv .spelling (composedHead .ret 0 0)
    let marked := fun (m : Mark) (bits : Byte) =>
      (inMode bits s).withLst { (inMode bits s).lst with cells := [{ cell with state := .composed, mark := m }] }
    let blank := s.withLst { s.lst with cells := [{ cell with state := .composed, blank := .space, code := 0x20 }] }
    (Powered s ∧ s.taq = act .ret 0 0 :: [] ∧ (act .ret 0 0).kind = .ret ∧ s.lst.conv = .spelling ∧ NoStall s) ∧
    (∃ c, c ∈ (marked .pending 1).lst.cells ∧ c.mark = .pending) ∧
    ((∀ c, c ∈ (marked .miss 0x21).lst.cells → c.mark ≠ .pending) ∧ (marked .miss 0x21).spc.requests = [] ∧
      (marked .miss 0x21).lst.mode.spellingHold = true ∧ (∃ c, c ∈ (marked .miss 0x21).lst.cells ∧ c.mark = .miss) ∧
      (marked .miss 0x21).lst.holdFlag = false) ∧
    (s.lst.mode.spellingHold = false ∧ WithoutTrailingBlanks (composedCells s) (composedCells s)) ∧
    WithoutTrailingBlanks (composedCells blank) [] ∧ (marked .good 3).lst.mode.justify = true ∧
    s.lst.mode.justify = false := by
  refine ⟨?_, by decide +kernel, by decide +kernel, ⟨rfl, [], (List.append_nil _).symm, fun _ h => absurd h List.not_mem_nil, ?_⟩,
    ⟨_, (List.nil_append _).symm, by decide +kernel, fun _ h => nomatch h⟩, rfl, rfl⟩
  · unfold Powered NoStall; decide +kernel
  · intro c h
    cases h
    rfl

/-- SpellHoldRefusesOrReleases: a RAGGED line of one word, and a line of two words with a counted space that is not RAGGED. -/
theorem test_meets_justify :
    let word := fun (n : Nat) => [{ cell with start := n, advance := 300, state := .composed }]
    let line := word 0 ++ [{ cell with start := 300, blank := .space, advance := 24, state := .composed }] ++ word 324
    Ragged 3359 24 (word 0) ∧ countedPlaces line = [1] ∧ lastStep line = 624 ∧ ¬ Ragged 672 24 line ∧ Ragged 673 24 line := by
  unfold Ragged
  decide +kernel

/-- ReleaseTakesCellsInTextOrder: the last cell of a RETURN's and of a MODE's release, a blank one, one without room. -/
theorem test_meets_release :
    let s := setConv (.releasing true) (composedHead .ret 0 0)
    let m := setConv (.releasing false) (composedHead .mode 0 0)
    let c := { cell with state := .composed }
    (Powered s ∧ CellsIdentified s ∧ s.taq = act .ret 0 0 :: [] ∧ s.lst.conv = .releasing true ∧ composedCells s = c :: [] ∧
      c.blank = .no ∧ s.pmc.work.length < 16) ∧
    (Powered m ∧ CellsIdentified m ∧ m.taq = act .mode 0 0 :: [] ∧ m.lst.conv = .releasing false ∧ composedCells m = c :: [] ∧
      (act .mode 0 0).kind = .mode) ∧
    16 ≤ (withWork fullWork s).pmc.work.length := by
  refine ⟨⟨rfl, ?_, rfl, rfl, by decide +kernel, rfl, by decide +kernel⟩, ⟨rfl, ?_, rfl, rfl, by decide +kernel, rfl⟩, by decide +kernel⟩
  · exact ⟨by decide +kernel, by decide +kernel, fun _ _ h _ => absurd h List.not_mem_nil, fun h => absurd rfl (h true)⟩
  · exact ⟨by decide +kernel, by decide +kernel, fun _ _ h _ => absurd h List.not_mem_nil, fun h => absurd rfl (h false)⟩

/-- LineCloseHandsOverAndReopens: a QUEUED cell waits, a PRINTED one closes, a stall waits before the close has begun. -/
theorem test_meets_close :
    let s := setConv (.draining false) (waiting .ret 0 0 (withCells [cell] 24 idle))
    let q := setConv (.draining false) (waiting .ret 0 0 (withCells [{ cell with state := .queued }] 24 idle))
    (Powered s ∧ s.taq = act .ret 0 0 :: [] ∧ s.lst.conv = .draining false ∧ s.cmm.length ≤ 256 ∧
      (∀ c, c ∈ s.lst.cells → c.state ≠ .queued ∧ c.state ≠ .liftPending) ∧ s.pmc.work.length < 16 ∧ NoStall s) ∧
    ¬ (∀ c, c ∈ q.lst.cells → c.state ≠ .queued ∧ c.state ≠ .liftPending) ∧ ¬ NoStall (stall s) ∧
    (setConv (.draining true) s).lst.conv = .draining true := by
  unfold Powered NoStall; decide +kernel

/-- ModeTakesEffect: a release, a refusal, the bits and each pitch. -/
theorem test_meets_mode :
    let past := withCells [{ cell with state := .composed, start := 3340 }] 3364 (inMode 5 (composed idle))
    let far := waiting .mode 1 0 ((past.withLst { past.lst with composeOrigin := some { step := 3340, frac := 0 } }))
    (HeadConverts .mode (act .mode 0 0) [] (composedHead .mode 0 0) ∧ composing (composedHead .mode 0 0) = true ∧
      (ModeBits.ofByte 0).line = false) ∧
    (HeadConverts .mode (act .mode 1 0) [] far ∧ (ModeBits.ofByte 1).line = true ∧ composing far = true ∧
      far.lst.mode.marginRelease = true ∧ (ModeBits.ofByte 1).marginRelease = false ∧
      ∃ r, LineFails far.esc false (originOf far) (composedCells far) r) ∧
    (HeadConverts .mode (act .mode 0x10 0) [] (waiting .mode 0x10 0 (inMode 0 idle)) ∧
      (ModeBits.ofByte 0x10).spellingOn ≠ (inMode 0 idle).lst.mode.spellingOn) ∧
    (HeadConverts .mode (act .mode 0x11 0) [] (waiting .mode 0x11 0 (inMode 0x10 idle)) ∧
      (inMode 0x10 idle).lst.mode.line = false ∧ (ModeBits.ofByte 0x11).line = true ∧
      (inMode 0x10 idle).lst.mode.spellingOn = true) ∧
    (HeadConverts .mode (act .mode 1 4) [] (waiting .mode 1 4 idle) ∧ ¬ (composing (waiting .mode 1 4 idle) = true)) := by
  exact ⟨⟨heads (by decide +kernel), by decide +kernel, rfl⟩,
    ⟨heads (by decide +kernel), by decide +kernel, by decide +kernel, by decide +kernel, by decide +kernel, ⟨.margin,
      Or.inr ⟨_, laidOut_of_layOut _ _ _ _ rfl, List.cons_ne_nil _ _, Or.inl (by decide +kernel), rfl⟩⟩⟩,
    ⟨heads (by decide +kernel), by decide +kernel⟩, ⟨heads (by decide +kernel), by decide +kernel⟩,
    ⟨heads (by decide +kernel), by decide +kernel⟩⟩

/-- MarginAndTabsetChangeEsc: both sides; each code of TABSET with its refusals; a composed line, laid out or refused. -/
theorem test_meets_margin_and_tabset :
    let m := fun (code : Byte) => waiting .margin code 0xFFFF idle
    let t := fun (code : Byte) (tabs : List Nat) => waiting .tabset code 0 (idle.withEsc { idle.esc with tabs := tabs })
    let stops := (List.range 16).map (fun n => 24 * n + 24)
    let cm := composedHead .margin 1 240
    (HeadConverts .margin (act .margin 0 0xFFFF) [] (m 0) ∧ composing (m 0) = false) ∧
    HeadConverts .margin (act .margin 1 0xFFFF) [] (m 1) ∧
    (HeadConverts .margin (act .margin 1 240) [] cm ∧ composing cm = true ∧
      ∃ ds, LineHolds { cm.esc with rm := 240 } cm.lst.mode.marginRelease (originOf cm) (composedCells cm) ds) ∧
    LineFails { cm.esc with rm := 240 } false { step := 200, frac := 0 } [{ cell with advance := 41 }] .margin ∧
    (HeadConverts .tabset (act .tabset 0 0) [] (t 0 [0]) ∧ (t 0 [0]).lst.step ∈ (t 0 [0]).esc.tabs) ∧
    (HeadConverts .tabset (act .tabset 0 0) [] (t 0 stops) ∧ 16 ≤ (t 0 stops).esc.tabs.length ∧
      (t 0 stops).lst.step ∉ (t 0 stops).esc.tabs) ∧
    ((t 0 [24]).lst.step ∉ (t 0 [24]).esc.tabs ∧ (t 0 [24]).esc.tabs.length < 16 ∧ stopsRise (t 0 [24]).esc.tabs = true) ∧
    (HeadConverts .tabset (act .tabset 1 0) [] (t 1 [0]) ∧ (t 1 [0]).lst.step ∈ (t 1 [0]).esc.tabs) ∧
    (HeadConverts .tabset (act .tabset 2 0) [] (t 2 [0]) ∧ (t 2 [0]).esc.tabs ≠ []) ∧
    (HeadConverts .tabset (act .tabset 2 0) [] (t 2 []) ∧ (t 2 []).esc.tabs = []) ∧
    (HeadConverts .tabset (act .tabset 3 0) [] (t 3 []) ∧ 2 < (3 : Byte).toNat) := by
  exact ⟨⟨heads (by decide +kernel), by decide +kernel⟩, heads (by decide +kernel),
    ⟨heads (by decide +kernel), by decide +kernel, ⟨_, lineHolds_of (by rfl) (by decide +kernel)⟩⟩,
    Or.inr ⟨_, laidOut_of_layOut _ _ _ _ rfl, List.cons_ne_nil _ _, Or.inl (by decide +kernel), rfl⟩,
    ⟨heads (by decide +kernel), by decide +kernel⟩,
    ⟨heads (by decide +kernel), by decide +kernel⟩, by decide +kernel, ⟨heads (by decide +kernel), by decide +kernel⟩,
    ⟨heads (by decide +kernel), by decide +kernel⟩, ⟨heads (by decide +kernel), by decide +kernel⟩,
    ⟨heads (by decide +kernel), by decide⟩⟩

/-- WheelPauseMarkShowAddWord: each kind, without room, without and with a Last Miss. -/
theorem test_meets_other_actions :
    let miss := (waiting .addWord 0 0 idle).withSpc { idle.spc with lastMiss := some [1, 2] }
    HeadConverts .wheel (act .wheel 7 0x1000) [] (waiting .wheel 7 0x1000 idle) ∧
    (HeadConverts .pause (act .pause 0 0) [] (waiting .pause 0 0 idle) ∧ (waiting .pause 0 0 idle).pmc.work.length < 16) ∧
    (HeadConverts .mark (act .mark 0 5) [] (withWork fullWork (waiting .mark 0 5 idle)) ∧
      16 ≤ (withWork fullWork (waiting .mark 0 5 idle)).pmc.work.length) ∧
    HeadConverts .showText (act .showText 32 0x400) [] (waiting .showText 32 0x400 idle) ∧
    (HeadConverts .addWord (act .addWord 0 0) [] (waiting .addWord 0 0 idle) ∧ (waiting .addWord 0 0 idle).spc.lastMiss = none) ∧
    (HeadConverts .addWord (act .addWord 0 0) [] miss ∧ miss.spc.lastMiss = some [1, 2]) := by
  exact ⟨heads (by decide +kernel), ⟨heads (by decide +kernel), by decide +kernel⟩, ⟨heads (by decide +kernel), by decide +kernel⟩,
    heads (by decide +kernel), ⟨heads (by decide +kernel), rfl⟩, ⟨heads (by decide +kernel), rfl⟩⟩

/-- EraseBeginsOrEditsTheLine: over non-composed cells; over composed ones with something to remove, and with the cursor at 0. -/
theorem test_meets_erase :
    let e := waiting .erase 0 1 idle
    let c := composedHead .erase 0 1
    let z := c.withLst { c.lst with cursor := 0 }
    (HeadConverts .erase (act .erase 0 1) [] e ∧ composing e = false) ∧
    (HeadConverts .erase (act .erase 0 1) [] c ∧ composing c = true ∧ CellsIdentified c ∧ 0 < composedRemoved c (act .erase 0 1) ∧
      ∃ ds, LaidOut c.esc.tabs (originOf c) ((composedCells c).take (c.lst.cursor - composedRemoved c (act .erase 0 1)) ++
        (composedCells c).drop c.lst.cursor) ds) ∧
    (HeadConverts .erase (act .erase 0 1) [] z ∧ composing z = true ∧ composedRemoved z (act .erase 0 1) = 0) := by
  refine ⟨⟨heads (by decide +kernel), by decide +kernel⟩,
    ⟨heads (by decide +kernel), by decide +kernel, ?_, by decide +kernel, ⟨_, laidOut_of_layOut _ _ _ _ rfl⟩⟩,
    ⟨heads (by decide +kernel), by decide +kernel, by decide +kernel⟩⟩
  exact ⟨by decide +kernel, by decide +kernel, fun _ _ h _ => absurd h List.not_mem_nil, fun _ => by decide +kernel⟩

/-- EraseStepByItsTarget: no target; a target LIFT_PENDING, of another wheel, blank, with its PRINT unstarted, PRINTED; in
word mode an end at a character that is no letter. -/
theorem test_meets_erase_step :
    let w : Walk := { mode := .count, remaining := 2, phase := .blanks, acted := false }
    let v : Walk := { mode := .word, remaining := 0, phase := .blanks, acted := true }
    let s := fun (w : Walk) (cs : List Cell) => setConv (.erasing w) (waiting .erase 0 1 (withCells cs 24 idle))
    let q := withWork [op false 0 (.print 0 0 10 5)] (s w [{ cell with state := .queued }])
    (Powered (s w []) ∧ (s w []).taq = act .erase 0 1 :: [] ∧ (s w []).lst.conv = .erasing w ∧ NoStall (s w []) ∧
      newestEnding (s w []).lst.cells (point (s w [])) = none) ∧
    (newestEnding (s w [cell]).lst.cells (point (s w [cell])) = some cell ∧ ModeGoesOn (s w [cell]) w cell .blanks ∧
      cell.state ≠ .liftPending ∧ cell.blank = .no ∧ cell.wheel = (s w [cell]).lst.wheelNumber ∧ cell.state ≠ .queued ∧
      (s w [cell]).pmc.work.length < 16) ∧
    (newestEnding (s w [{ cell with state := .liftPending }]).lst.cells { step := 24, frac := 0 } =
      some { cell with state := .liftPending }) ∧
    ({ cell with wheel := 1 }.wheel ≠ (s w [{ cell with wheel := 1 }]).lst.wheelNumber) ∧
    (newestEnding q.lst.cells (point q) = some { cell with state := .queued } ∧ PrintWaits q 0) ∧
    ((∀ ph, ¬ ModeGoesOn (s v [{ cell with fold := 0 }]) v { cell with fold := 0 } ph) ∧ v.acted = true ∧
      newestEnding (s v [{ cell with fold := 0 }]).lst.cells { step := 24, frac := 0 } = some { cell with fold := 0 }) ∧
    ModeGoesOn (s v [{ cell with blank := .space }]) v { cell with blank := .space } .blanks := by
  refine ⟨?_, ⟨by decide +kernel, rfl, by decide +kernel⟩, by decide +kernel, by decide +kernel,
    ⟨by decide +kernel, ⟨_, 0, 10, 5, List.mem_singleton.mpr rfl, rfl, rfl⟩⟩, ⟨?_, rfl, by decide +kernel⟩, Or.inl ⟨by decide, rfl, rfl⟩⟩
  · unfold Powered NoStall; decide +kernel
  · rintro ph (⟨h, -, -⟩ | ⟨-, h, -⟩)
    · exact h rfl
    · exact h rfl

/-- Without a conversion in progress no walk is. -/
theorem noWalk {s : State} (h : s.lst.conv = .idle) : WalkAtHead s := fun _ hw => nomatch h.symm.trans hw

/-- OperationTakeUpByKind: each kind at the front in READY, a stall, QUIET. -/
theorem test_meets_take_up :
    let s := fun (b : OpBody) => withWork [op false 0 b] idle
    Powered (s (.print 0 0 10 5)) ∧ WalkAtHead (s (.print 0 0 10 5)) ∧ (s (.print 0 0 10 5)).pmc.state = .ready ∧
    (s (.print 0 0 10 5)).pmc.work = op false 0 (.print 0 0 10 5) :: [] ∧
    (s (.lift 0 0 10 5 2)).pmc.work = op false 0 (.lift 0 0 10 5 2) :: [] ∧
    (s (.feed (-16))).pmc.work = op false 0 (.feed (-16)) :: [] ∧ (s (.pause 60000)).pmc.work = op false 0 (.pause 60000) :: [] ∧
    (s (.mark 1 2)).pmc.work = op false 0 (.mark 1 2) :: [] ∧ NoStall (s (.feed 1)) ∧ quietOn (s (.feed 1)) = false ∧
    ¬ NoStall (stall (s (.feed 1))) ∧ quietOn (setQuiet true (s (.feed 1))) = true := by
  refine ⟨rfl, noWalk rfl, ?_⟩
  unfold NoStall; decide +kernel

/-- A part MOVING toward step 24 and petal 30, the wheel at 80. -/
def moving : State :=
  let s := mech .moving (withWork [op true 0 (.print 0 24 30 5)] idle)
  s.withPmc { s.pmc with wheel := some 80 }

/-- MotionLeadsToStriking: arrivals to come; slips on the way at 0 and at 30 and off it at 31; three retries made; the settle
with the spacing over and not; the spacing; and both timers still running. -/
theorem test_meets_motion :
    let third := moving.withPmc { moving.pmc with retry := 3 }
    let settled := moving.withTmb { moving.tmb with settle := some 0 }
    let fired := (moving.withPmc { moving.pmc with lastFire := some { tick := 0, onTick := false, energy := 5 } }).withTmb
      { moving.tmb with settle := some 0, spacing := some 12 }
    let elapsed := fired.withTmb { fired.tmb with settle := some 1, spacing := some 0 }
    let d := (30 + 96 - 80 % 96) % 96
    (Powered moving ∧ moving.pmc.state = .moving ∧ moving.pmc.work = op true 0 (.print 0 24 30 5) :: [] ∧
      (op true 0 (.print 0 24 30 5)).body.goal? = some (24, 30) ∧ moving.pmc.carriageArrived = false) ∧
    (moving.pmc.wheelArrived = false ∧ moving.pmc.slipHoming = false ∧ moving.pmc.wheelTrusted = true ∧
      moving.pmc.wheel = some 80 ∧ 0 < 96) ∧
    (d ≤ 48 ∧ 1 ≤ (0 + 96 - 80 % 96) % 96 ∧ (0 + 96 - 80 % 96) % 96 ≤ d ∧ (30 + 96 - 80 % 96) % 96 ≤ d ∧
      ¬ (31 + 96 - 80 % 96) % 96 ≤ d) ∧
    (moving.pmc.retry < 3 ∧ 3 ≤ third.pmc.retry ∧ third.pmc.carriage = some 0) ∧
    (settled.tmb.settle = some 0 ∧ settled.pmc.lastFire = none) ∧
    (fired.tmb.settle = some 0 ∧ fired.pmc.lastFire ≠ none ∧ fired.tmb.spacing ≠ none ∧ fired.tmb.spacing ≠ some 0) ∧
    (elapsed.tmb.spacing = some 0 ∧ elapsed.tmb.settle ≠ some 0) := by
  unfold Powered; decide +kernel

/-- HammerStrikesAndCompletes: a fire that strikes; none in READY; the end of a PRINT and of a LIFT. -/
theorem test_meets_hammer :
    let rec_ := fun (b : OpBody) => mech .recovering (withWork [op true 1 b] idle)
    (Powered striking ∧ striking.pmc.work = op true 0 (.print 0 0 10 5) :: [] ∧
      (op true 0 (.print 0 0 10 5)).body.goal? = some (0, 10) ∧ striking.pmc.state = .striking ∧
      (op true 0 (.print 0 0 10 5)).struck < (op true 0 (.print 0 0 10 5)).body.passCount ∧
      striking.pmc.wheel = some 10 ∧ striking.pmc.wheelTrusted = true ∧ striking.pmc.lastFire = none) ∧
    idle.pmc.state ≠ .striking ∧
    ((rec_ (.print 0 0 10 5)).pmc.state = .recovering ∧ (rec_ (.print 0 0 10 5)).pmc.work = op true 1 (.print 0 0 10 5) :: []) ∧
    ((rec_ (.lift 0 0 10 5 1)).pmc.work = op true 1 (.lift 0 0 10 5 1) :: [] ∧
      (op true 1 (.lift 0 0 10 5 1)).body.goal? = some (0, 10)) := by
  unfold Powered; decide +kernel

/-- A part in HOMING. -/
def homing (k : HomingKind) (p : HomingPart) (ops : List Operation) : State :=
  let s := withWork ops (mech .homing idle)
  s.withPmc { s.pmc with homing := some { kind := k, part := p } }

/-- HomingsEndOrFault: a slip re-home; each kind of homing at its wheel part; the carriage part; the move to LM; and, for
what resumes, each kind of operation at the front and none. -/
theorem test_meets_homings :
    let slip := moving.withPmc { moving.pmc with slipHoming := true }
    (Powered slip ∧ WalkAtHead slip ∧ slip.pmc.state = .moving ∧ slip.pmc.slipHoming = true ∧ slip.pmc.work = op true 0 (.print 0 24 30 5) :: [] ∧
      slip.pmc.carriage = some 0) ∧
    ([HomingKind.close, .wake, .rehome, .first].all (fun k =>
      decide ((homing k .wheel []).pmc.state = .homing) &&
      decide ((homing k .wheel []).pmc.homing = some { kind := k, part := .wheel })) = true) ∧
    ((homing .rehome .carriage []).pmc.homing = some { kind := .rehome, part := .carriage }) ∧
    ((homing .first (.toMargin 480) []).pmc.homing = some { kind := .first, part := .toMargin 480 }) ∧
    ([OpBody.print 0 24 30 5, .lift 0 24 30 5 2, .feed 3, .pause 100].all (fun b =>
      decide ((homing .rehome .wheel [op true 0 b]).pmc.work = op true 0 b :: [])) = true) ∧
    (∀ o os, (homing .rehome .wheel []).pmc.work = o :: os → o.started = false) := by
  exact ⟨⟨rfl, noWalk rfl, by decide +kernel⟩, by decide +kernel, rfl, rfl, by decide +kernel,
    fun _ _ h => nomatch h⟩

/-- CoverParksAndCloses: an unlike sample; an opening in each state; passes all struck; a closing with each parked work. -/
theorem test_meets_cover :
    let o := fun (s : State) => s.withPmc { s.pmc with lastSample := some true }
    let c := fun (w : ParkedWork) (at_ : Option Nat) => (mech .parked idle).withPmc { (mech .parked idle).pmc with
      lastSample := some false, coverOpen := true, parked := some w, parkMoving := true, carriage := at_ }
    (Powered idle ∧ idle.pmc.lastSample ≠ some true) ∧
    ((o idle).pmc.lastSample = some true ∧ (o idle).pmc.coverOpen = false ∧ (o idle).pmc.state = .ready ∧
      (o idle).pmc.work = []) ∧
    (o (mech .fault idle)).pmc.state = .fault ∧ (o (mech .pausing idle)).pmc.state = .pausing ∧
    ((o (withWork [op true 0 (.feed 3)] (mech .feeding idle))).pmc.work = op true 0 (.feed 3) :: []) ∧
    (o (homing .first .carriage [])).pmc.homing = some { kind := .first, part := .carriage } ∧
    ((o (homing .first (.toMargin 480) [])).pmc.homing = some { kind := .first, part := .toMargin 480 } ∧
      homingStop { kind := .first, part := .toMargin 480 } (some 0) 100 = some 100 ∧
      homingStop { kind := .first, part := .toMargin 480 } (some 0) 900 = some 480 ∧
      homingStop { kind := .rehome, part := .carriage } none 100 = none) ∧
    ((o moving).pmc.carriage = some 0 ∧ (o moving).pmc.carriageArrived = false ∧
      (op true 0 (.print 0 24 30 5)).struck < (op true 0 (.print 0 24 30 5)).body.passCount) ∧
    (0 < (op true 2 (.lift 0 24 30 5 2)).body.passCount ∧
      (op true 2 (.lift 0 24 30 5 2)).body.passCount ≤ (op true 2 (.lift 0 24 30 5 2)).struck) ∧
    ((c .operation (some 100)).pmc.state = .parked ∧ (c .operation (some 100)).pmc.coverOpen = true ∧
      (c .operation (some 100)).pmc.carriage = some 100 ∧ (c .operation (some 100)).pmc.parkMoving = true) ∧
    ((c (.homing .rehome) none).pmc.carriage = none ∧ (c (.homing .rehome) none).pmc.parked = some (.homing .rehome)) ∧
    (mech .held idle).pmc.state ≠ .parked := by
  unfold Powered; decide +kernel

/-- CoverParksAndCloses: an operation in flight in HELD, and none in READY. -/
theorem test_meets_front_in_flight :
    FrontInFlight (withWork [op true 0 (.print 0 24 30 5)] (mech .held idle)) ∧ ¬ FrontInFlight idle := by
  exact ⟨⟨_, [], rfl, rfl⟩, fun ⟨_, _, h, _⟩ => nomatch h⟩

/-- FeedPauseRestAndFollow: FEEDING; PAUSING, PARKED and HOMING over a PAUSE, one frozen; READY at rest and not; RESTING with
and without work; a carriage that follows and one that does not. -/
theorem test_meets_feed_pause_rest :
    let f := withWork [op true 0 (.feed 3)] (mech .feeding idle)
    let p := fun (m : MechState) => (withWork [op true 0 (.pause 10)] (mech m idle)).withTmb { idle.tmb with pause := some 0 }
    let parked := (p .parked).withPmc { (p .parked).pmc with parked := some .operation }
    let frozen := (p .fault).withPmc { (p .fault).pmc with pauseFrozen := true }
    let r := (idle.withSettings { idle.settings with restSeconds := 1 }).withTmb { idle.tmb with rest := some 1001 }
    let soon := r.withTmb { r.tmb with rest := some 1000 }
    (Powered f ∧ f.pmc.state = .feeding ∧ f.pmc.work = op true 0 (.feed 3) :: []) ∧
    ((p .pausing).pmc.work = op true 0 (.pause 10) :: [] ∧ (p .pausing).tmb.pause = some 0 ∧
      (p .pausing).pmc.pauseFrozen = false ∧ (p .pausing).pmc.state = .pausing ∧ (p .homing).pmc.state = .homing) ∧
    (parked.pmc.state = .parked ∧ parked.pmc.parked = some .operation ∧ parked.pmc.pauseFrozen = false) ∧
    (frozen.pmc.pauseFrozen = true ∧ frozen.tmb.pause = some 0) ∧
    (r.pmc.state = .ready ∧ r.pmc.work = [] ∧ r.pmc.carriage = some r.lst.step ∧ r.settings.restSeconds ≠ 0 ∧
      r.tmb.rest = some 1001 ∧ 1000 * r.settings.restSeconds < 1001) ∧
    (soon.tmb.rest = some 1000 ∧ 1000 ≤ 1000 * soon.settings.restSeconds) ∧
    idle.settings.restSeconds = 0 ∧ idle.tmb.pause ≠ some 0 ∧
    ((mech .resting f).pmc.state = .resting ∧ (mech .resting f).pmc.work ≠ []) ∧
    ((mech .resting idle).pmc.work = [] ∧ (mech .resting idle).pmc.carriage = some (mech .resting idle).lst.step) ∧
    (moving.pmc.state ≠ .feeding ∧ moving.pmc.state ≠ .ready ∧ moving.pmc.carriage = some 0) := by
  unfold Powered; decide +kernel

/-- A word of the Word Check Queue. -/
def word : CheckWord := { number := 1, folds := [1, 2], start := 0, origin := 0x200, tag := 0, late := false }

/-- ChecksAndAddRequests: a word waiting; a word in flight with each verdict, discarded; a request not begun and with each
finding. -/
theorem test_meets_checks :
    let s := idle.withSpc { idle.spc with queue := [word] }
    let f := fun (v : Verdict) (d : Bool) => idle.withSpc
      { idle.spc with flight := some { word := word, verdict := v, discarded := d } }
    let q := fun (found : Option SlotFinding) => idle.withSpc
      { idle.spc with requests := [{ folds := [1, 2], origin := 0x200, seq := 1, finding := found }] }
    (Powered s ∧ s.spc.queue = word :: [] ∧ s.spc.flight = none ∧ s.spc.requests = [] ∧ NoStall s ∧
      s.spc.filterBase = some 0x2000 ∧ s.spc.filterOrder = some 10 ∧ s.spc.userList = some 0x3000) ∧
    ((f .good false).spc.flight = some { word := word, verdict := .good, discarded := false }) ∧
    ((f .miss false).spc.flight = some { word := word, verdict := .miss, discarded := false }) ∧
    ((f .miss true).spc.flight = some { word := word, verdict := .miss, discarded := true }) ∧
    ((q none).spc.requests = { folds := [1, 2], origin := 0x200, seq := 1, finding := none } :: [] ∧
      (q none).spc.flight = none ∧ NoStall (q none) ∧ (q none).spc.userList = some 0x3000 ∧ ¬ NoStall (stall (q none))) ∧
    ([SlotFinding.equalSlot, .noSlot, .emptySlot 63].all (fun x => decide ((q (some x)).spc.requests =
      { folds := [1, 2], origin := 0x200, seq := 1, finding := some x } :: [])) = true) ∧
    (MemoryCanonical (q (some (.emptySlot 63))) ∧ [1, 2].length ≤ 24) := by
  unfold Powered NoStall MemoryCanonical; decide +kernel

/-- NoticesAndMirrorReachTheRam: a notice with the ring free, with one untaken place left, and full; the wait, touched and
polled; the mirror before and after the first RUN. -/
theorem test_meets_notices :
    let n : Notice := { kind := .homed, ragged := false, detail := 0, origin := 0, tag := 0, position := 0 }
    let s := post n idle
    let at_ := fun (k : Half) => s.withNtw { s.ntw with produced := k }
    let w := s.withNtw { s.ntw with ringWaiting := true, takenTouched := true }
    (Powered s ∧ MemoryCanonical s ∧ s.ntw.holding = n :: [] ∧ s.ntw.noticeBase = some 0x400 ∧ s.klr.ran = true ∧
      s.ntw.ringWaiting = false) ∧
    ((at_ 31).ntw.produced - ramHalf (at_ 31) (anchorBase (at_ 31) + 16)).toNat < 32 ∧
    32 ≤ ((at_ 32).ntw.produced - ramHalf (at_ 32) (anchorBase (at_ 32) + 16)).toNat ∧
    (w.ntw.ringWaiting = true ∧ w.ntw.takenTouched = true ∧ w.klr.state ≠ .atEnd ∧ w.ntw.noticeBase = some 0x400 ∧
      w.hpa.portRequests = []) ∧
    ((reader .atEnd 0x208 w).klr.state = .atEnd ∧ (reader .atEnd 0x208 w).ntw.ringWaiting = true) ∧
    State.reset.klr.ran = false ∧ idle.ntw.mirrorLast = List.replicate 17 none ∧ idle.ntw.holding = [] := by
  unfold Powered MemoryCanonical; decide +kernel

/-- NoticesAndMirrorReachTheRam: a batch of the one field that differs, the last of the table, and none that differs. -/
theorem test_meets_mirror_fields :
    let same := idle.withNtw { idle.ntw with mirrorLast := (mirrorTable idle).map (fun f => some f.2.2) }
    let one := same.withLst { same.lst with cursor := 3 }
    (one.klr.ran = true ∧ one.ntw.mirrorLast.length = 17 ∧ FieldDiffers one 43 1 3) ∧
    (same.klr.ran = true ∧ same.ntw.mirrorLast.length = 17 ∧ ¬ ∃ offset width value, FieldDiffers same offset width value) := by
  refine ⟨⟨by decide +kernel, by decide +kernel, ⟨16, some 0, by decide +kernel, by decide +kernel, by decide⟩⟩,
    by decide +kernel, by decide +kernel, ?_⟩
  rintro ⟨o, w, v, k, last, hk, hl, hne⟩
  have hm : ∀ m : List (Nat × Nat × Nat), m[k]? = some (o, w, v) → (m.map (fun f => some f.2.2))[k]? = some last → last = some v := by
    intro m h1 h2
    rw [List.getElem?_map, h1] at h2
    exact (Option.some.inj h2).symm
  exact hne (hm _ hk hl)

/-- DisplayLinkMessageAndTone: a transfer under way; SCAN; DIFF with a cell to send (the last searched) and with none; a
message; a tone in its first and in its last interval; and timers that have not run out. -/
theorem test_meets_display :
    let s := State.reset
    let scan := s.withDsp { s.dsp with linkMode := .scan }
    let sent := s.withDsp { s.dsp with sent := s.dsp.image.map some }
    let last := s.withDsp { s.dsp with sent := (s.dsp.image.map some).set 39 none }
    let under := s.withDsp { s.dsp with transfer := some { index := 39, content := blankImage } }
    let tone := fun (i : Nat) => (s.withDsp { s.dsp with tone := some { pattern := .refuse, interval := i } }).withTmb
      { s.tmb with tone := some 0 }
    let msg := refresh ((s.withDsp { s.dsp with message := some (List.replicate 32 0x41) }).withTmb
      { s.tmb with message := some 0 })
    (Powered s ∧ ImageCurrent msg ∧ msg.dsp.message = some (List.replicate 32 0x41) ∧ msg.tmb.message = some 0) ∧
    (scan.dsp.transfer = none ∧ scan.dsp.linkMode = .scan ∧ scan.dsp.image[scan.dsp.linkPtr]? = some { code := 0x20, attr := .cursor }) ∧
    (last.dsp.linkMode = .diff ∧ 39 < 40 ∧ (∀ j, j < 39 → last.dsp.sent[(last.dsp.linkPtr + j) % 40]? =
        (last.dsp.image[(last.dsp.linkPtr + j) % 40]?).map some) ∧
      last.dsp.image[(last.dsp.linkPtr + 39) % 40]? = some blankImage ∧
      last.dsp.sent[(last.dsp.linkPtr + 39) % 40]? ≠ some (some blankImage)) ∧
    (sent.dsp.transfer = none ∧ sent.dsp.linkMode = .diff ∧ sent.dsp.sent = sent.dsp.image.map some) ∧
    (under.dsp.transfer = some { index := 39, content := blankImage }) ∧
    (s.tmb.message ≠ some 0 ∧ s.tmb.tone ≠ some 0) ∧
    ((tone 0).dsp.tone = some { pattern := .refuse, interval := 0 } ∧ (tone 0).tmb.tone = some 0 ∧
      (patternSeries .refuse)[0 + 1]? = some 40) ∧
    ((tone 2).dsp.tone = some { pattern := .refuse, interval := 2 } ∧ (patternSeries .refuse).length ≤ 2 + 1) := by
  unfold Powered ImageCurrent; decide +kernel

/-- DisplayLinkMessageAndTone: the shape and the window of the states above. -/
theorem test_meets_display_shape :
    let msg := refresh ((State.reset.withDsp { State.reset.dsp with message := some (List.replicate 32 0x41) }).withTmb
      { State.reset.tmb with message := some 0 })
    DisplayShaped msg ∧ WindowFollows msg := by
  refine ⟨⟨by decide +kernel, by decide +kernel, by decide +kernel, by decide +kernel, ?_⟩, ?_⟩
  · show (List.replicate 32 (0x41 : Byte)).length = 32
    rfl
  · unfold WindowFollows; decide +kernel

/-! ### The words that the statements spell out -/

/-- What the intake makes of a record: its kind, or its outcome. -/
def intake (kind code arg : Nat) : Option KeyKind × Option RecordOutcome :=
  match validate { kind := BitVec.ofNat 8 kind, code := BitVec.ofNat 8 code, arg := BitVec.ofNat 16 arg } with
  | .ok k => (some k, none)
  | .error o => (none, some o)

/-- R44 at the boundaries of each check: the records it passes. -/
theorem test_intake_passes :
    [intake 1 0x20 0, intake 1 0x7E 0, intake 12 7 0x7E00, intake 4 1 0, intake 2 1 0x7FFF, intake 16 32 0x7FE0,
      intake 17 0xFF 0xFFFF].map Prod.fst =
    [some .char, some .char, some .wheel, some .erase, some .text, some .showText, some .forward] := by decide +kernel

/-- R44 at the boundaries of each check: the records it refuses, the first failed check giving the outcome. -/
theorem test_intake_refuses :
    [intake 0 0x61 0, intake 18 0x61 0, intake 1 0x1F 0, intake 1 0x7F 0, intake 12 8 0xFFFF, intake 4 2 0, intake 2 0 0xFFFF,
      intake 16 0 0, intake 16 33 0xFFFF, intake 12 7 0x7E01, intake 2 2 0x7FFF, intake 16 1 0x8000].map Prod.snd =
    [some .badKind, some .badKind, some .badCode, some .badCode, some .badCode, some .badCode, some .badLength,
      some .badLength, some .badLength, some .badPointer, some .badPointer, some .badPointer] := by decide +kernel

/-- Section 6.5: ON stands in a filter of order 10 with its three bits, and not with the last of them 0. -/
theorem test_in_filter :
    InFilter (fun _ => ramOf [(59, 0x80), (65, 1), (70, 2)] State.reset) 0 4 [15, 14] ∧
    LeavesFilter (fun _ => ramOf [(59, 0x80), (65, 1)] State.reset) 0 10 [15, 14] 3 ∧ hashFrom 0 [9, 20, 27, 19] = 288195 := by
  unfold InFilter LeavesFilter ProbeSet; decide +kernel

/-- R117: the accesses that read the lengths of slots 0 to 3, when slot 1 has the word's length and is read whole. -/
theorem test_slot_access :
    let s := ramOf [(0x1A, 2), (0x1B, 7)] State.reset
    [0, 1, 2, 3].map (slotAccess (fun _ => s) 0 [15, 14] 1) = [1, 2, 5, 6] := by decide +kernel

/-- Section 8.5: a LINE_DONE with RAGGED, field by field. -/
theorem test_entry_bytes :
    entryBytes { kind := .lineDone, ragged := true, detail := 5, origin := 0x0208, tag := 0x1234, position := 0x0D1F } =
    [0x82, 5, 0x08, 0x02, 0x34, 0x12, 0x1F, 0x0D] := by decide +kernel

/-- R5: of two cells ending at the point the later; none where only the fraction differs, or only a composed cell ends. -/
theorem test_newest_ending :
    newestEnding [cell, { cell with id := 1 }, { cell with id := 2, state := .composed }] cell.ending = some { cell with id := 1 } ∧
    newestEnding [cell] { cell.ending with frac := cell.fAfter + 1 } = none ∧ EndsAt cell.ending cell := by
  unfold EndsAt; decide +kernel

/-- R30: a stop equal to the step is passed over; the last stop; and past it none. -/
theorem test_meets_stops :
    [240, 241, 600].Pairwise (· < ·) ∧
    [239, 240, 241, 599, 600].map (nextStop [240, 241, 600]) = [some 240, some 241, some 600, some 600, none] := by decide +kernel

/-- R134: the output in a sounding interval, in a silent one, and with no tone. -/
theorem test_tone_output :
    let tone := fun (i : Nat) => State.reset.withDsp { State.reset.dsp with tone := some { pattern := .fault, interval := i } }
    toneOutput (tone 0) = some 250 ∧ toneOutput (tone 5) = none ∧ toneOutput State.reset = none := by decide +kernel

end Sys2Proof.Tests
end

section
/-! PROOFS. The Display Image (chapter 7): the visual row with its cursor place as statements about lists, what an image of
its sources shows, and that every step keeps the image that of its sources. -/
namespace Sys2Proof.Machine.DisplayImage

/-! ### The visual row (R125) -/

/-- A row holds, after a cell was added, that cell and the cells at the other starts. -/
theorem mem_rowInsert (c d : Cell) (row : List Cell) (h : row.Pairwise (fun x y => x.start < y.start)) :
    d ∈ rowInsert c row ↔ d = c ∨ (d ∈ row ∧ d.start ≠ c.start) := by
  induction row with
  | nil => simp [rowInsert]
  | cons e r ih =>
    obtain ⟨he, hr⟩ := List.pairwise_cons.mp h
    unfold rowInsert
    split
    next hlt =>
      have hne : ∀ x ∈ e :: r, x.start ≠ c.start := by
        intro x hx
        rcases List.mem_cons.mp hx with rfl | hx
        · omega
        · have := he x hx
          omega
      rw [List.mem_cons]
      exact or_congr_right ⟨fun hd => ⟨hd, hne d hd⟩, And.left⟩
    next hge =>
      split
      next heq =>
        have hne : ∀ x ∈ r, x.start ≠ c.start := fun x hx => by
          have := he x hx
          omega
        rw [List.mem_cons, List.mem_cons]
        refine or_congr_right ⟨fun hd => ⟨.inr hd, hne d hd⟩, ?_⟩
        rintro ⟨rfl | hd, hs⟩
        · exact absurd heq.symm hs
        · exact hd
      next hne =>
        rw [List.mem_cons, List.mem_cons, ih hr]
        constructor
        · rintro (rfl | rfl | ⟨hd, hs⟩)
          · exact .inr ⟨.inl rfl, Ne.symm hne⟩
          · exact .inl rfl
          · exact .inr ⟨.inr hd, hs⟩
        · rintro (rfl | ⟨rfl | hd, hs⟩)
          · exact .inr (.inl rfl)
          · exact .inl rfl
          · exact .inr (.inr ⟨hd, hs⟩)

/-- Adding a cell keeps a row in ascending order of start. -/
theorem rowInsert_ascends (c : Cell) (row : List Cell) (h : row.Pairwise (fun x y => x.start < y.start)) :
    (rowInsert c row).Pairwise (fun x y => x.start < y.start) := by
  induction row with
  | nil => simp [rowInsert]
  | cons e r ih =>
    obtain ⟨he, hr⟩ := List.pairwise_cons.mp h
    unfold rowInsert
    split
    next hlt =>
      refine List.pairwise_cons.mpr ⟨fun x hx => ?_, h⟩
      rcases List.mem_cons.mp hx with rfl | hx
      · exact hlt
      · exact Nat.lt_trans hlt (he x hx)
    next hge =>
      split
      next heq => exact List.pairwise_cons.mpr ⟨fun x hx => heq ▸ he x hx, hr⟩
      next hne =>
        refine List.pairwise_cons.mpr ⟨fun x hx => ?_, ih hr⟩
        rcases (mem_rowInsert c x r hr).mp hx with rfl | ⟨hx, -⟩
        · omega
        · exact he x hx

/-- With a cell added at its end, a list has as its newest cells of their starts that cell and the former newest ones of
other starts. -/
theorem newest_concat_iff (cells : List Cell) (c d : Cell) :
    (∃ before after, cells ++ [c] = before ++ d :: after ∧ ∀ e, e ∈ after → e.start ≠ d.start) ↔
      d = c ∨ (∃ before after, cells = before ++ d :: after ∧ ∀ e, e ∈ after → e.start ≠ d.start) ∧ d.start ≠ c.start := by
  constructor
  · rintro ⟨before, after, heq, hnew⟩
    rcases List.eq_nil_or_concat after with rfl | ⟨rest, x, rfl⟩
    · obtain ⟨-, hc⟩ := List.append_inj' heq rfl
      exact .inl (List.cons.inj hc).1.symm
    · have heq' : cells ++ [c] = (before ++ d :: rest) ++ [x] := by simpa using heq
      obtain ⟨hcells, hx⟩ := List.append_inj' heq' rfl
      obtain rfl := (List.cons.inj hx).1
      exact .inr ⟨⟨before, rest, hcells, fun e he => hnew e (by simp [he])⟩, Ne.symm (hnew c (by simp))⟩
  · rintro (rfl | ⟨⟨before, after, rfl, hnew⟩, hs⟩)
    · exact ⟨cells, [], rfl, by simp⟩
    · refine ⟨before, after ++ [c], by simp, fun e he => ?_⟩
      rcases List.mem_append.mp he with he | he
      · exact hnew e he
      · rw [List.mem_singleton.mp he]
        exact Ne.symm hs

/-- A cell added at the end of a list takes its place in the visual row. -/
theorem visualRow_concat (cells : List Cell) (c : Cell) : visualRow (cells ++ [c]) = rowInsert c (visualRow cells) :=
  List.foldl_append

theorem rowOf_concat {cells row : List Cell} (h : RowOf cells row) (c : Cell) : RowOf (cells ++ [c]) (rowInsert c row) := by
  obtain ⟨hsorted, hmem⟩ := h
  exact ⟨rowInsert_ascends c row hsorted, fun d => by rw [mem_rowInsert c d row hsorted, newest_concat_iff, hmem d]⟩

/-- The row of a list reversed is that of R125; the recursion takes the cells from the list's end. -/
theorem rowOf_visualRow_reverse (cells : List Cell) : RowOf cells.reverse (visualRow cells.reverse) := by
  induction cells with
  | nil => exact ⟨List.Pairwise.nil, fun c => by simp [visualRow]⟩
  | cons c cells ih =>
    rw [List.reverse_cons, visualRow_concat]
    exact rowOf_concat ih c

/-- The visual row is that of R125. -/
theorem rowOf_visualRow (cells : List Cell) : RowOf cells (visualRow cells) := by
  have h := rowOf_visualRow_reverse cells.reverse
  rwa [List.reverse_reverse] at h

/-! ### The cursor place (R126, R127) -/

/-- The cursor index of an ascending row is that of R126. -/
theorem cursorAt_cursorIndex (row : List Cell) (p : Nat) (h : row.Pairwise (fun x y => x.start < y.start)) :
    CursorAt row p (cursorIndex row p) := by
  refine ⟨(List.takeWhile_sublist _).length_le, ?_⟩
  induction row with
  | nil => simp
  | cons d r ih =>
    obtain ⟨hd, hr⟩ := List.pairwise_cons.mp h
    intro j c hc
    by_cases hp : d.start < p
    · have hi : cursorIndex (d :: r) p = cursorIndex r p + 1 := by simp [cursorIndex, hp]
      rw [hi]
      cases j with
      | zero =>
        obtain rfl : d = c := by simpa using hc
        simp [hp]
      | succ j => simpa using ih hr j c (by simpa using hc)
    · have hi : cursorIndex (d :: r) p = 0 := by simp [cursorIndex, hp]
      have hdc : d.start ≤ c.start := by
        rcases List.mem_cons.mp (List.mem_of_getElem? hc) with rfl | hc
        · exact Nat.le_refl _
        · exact Nat.le_of_lt (hd c hc)
      rw [hi]
      omega

/-- An entry as shown, in the statement's words. -/
theorem entryImage_eq_entryShown (blinkOn : Bool) : entryImage blinkOn = entryShown blinkOn := by
  funext c
  unfold entryImage entryShown
  split
  · rfl
  · split <;> rfl

/-- A list with an element put between its two parts, place by place. -/
theorem getElem?_inserted (f : Cell → ImageCell) (x : ImageCell) (front rest : List Cell) (k : Nat) :
    (front.map f ++ x :: rest.map f)[k]? = if k = front.length then some x else
      ((front ++ rest)[if k < front.length then k else k - 1]?).map f := by
  have hlen : (front.map f).length = front.length := List.length_map f
  rcases Nat.lt_trichotomy k front.length with hk | hk | hk
  · rw [List.getElem?_append_left (hlen ▸ hk), List.getElem?_map, if_neg (Nat.ne_of_lt hk), if_pos hk,
      List.getElem?_append_left hk]
  · rw [List.getElem?_append_right (by omega), hlen, if_pos hk, hk, Nat.sub_self]
    rfl
  · obtain ⟨m, hm⟩ : ∃ m, k - front.length = m + 1 := ⟨k - front.length - 1, by omega⟩
    have hprev : k - 1 - front.length = m := by omega
    rw [List.getElem?_append_right (by omega), hlen, hm, List.getElem?_cons_succ, List.getElem?_map,
      if_neg (by omega), if_neg (by omega), List.getElem?_append_right (by omega), hprev]

/-- A list with an element put in the place of another, place by place. -/
theorem getElem?_replaced (f : Cell → ImageCell) (x : ImageCell) (c : Cell) (front rest : List Cell) (k : Nat) :
    (front.map f ++ x :: rest.map f)[k]? = if k = front.length then some x else ((front ++ c :: rest)[k]?).map f := by
  have hlen : (front.map f).length = front.length := List.length_map f
  rcases Nat.lt_trichotomy k front.length with hk | hk | hk
  · rw [List.getElem?_append_left (hlen ▸ hk), List.getElem?_map, if_neg (Nat.ne_of_lt hk), List.getElem?_append_left hk]
  · rw [List.getElem?_append_right (by omega), hlen, if_pos hk, hk, Nat.sub_self]
    rfl
  · obtain ⟨m, hm⟩ : ∃ m, k - front.length = m + 1 := ⟨k - front.length - 1, by omega⟩
    rw [List.getElem?_append_right (by omega), hlen, hm, List.getElem?_cons_succ, List.getElem?_map,
      if_neg (by omega), List.getElem?_append_right (by omega), hm, List.getElem?_cons_succ]

/-- The entries before the cursor place and the rest from it on, place by place: the cursor on the entry at the point, or
inserted between the two. -/
theorem getElem?_cursorTail (blinkOn : Bool) (p : Nat) (front rest : List Cell) (k : Nat) :
    (front.map (entryImage blinkOn) ++ cursorTail blinkOn p rest)[k]? =
      rowShown blinkOn (front ++ rest) p front.length k := by
  have hplace : (front ++ rest)[front.length]? = rest[0]? := by
    rw [List.getElem?_append_right (Nat.le_refl _), Nat.sub_self]
  rw [entryImage_eq_entryShown, rowShown, hplace]
  cases rest with
  | nil => exact getElem?_inserted (entryShown blinkOn) _ front [] k
  | cons c cs =>
    rw [cursorTail, entryImage_eq_entryShown, List.getElem?_cons_zero]
    by_cases hc : c.start = p
    · rw [if_pos hc]
      exact (getElem?_replaced _ _ c front cs k).trans (if_pos hc).symm
    · rw [if_neg hc]
      exact (getElem?_inserted _ _ front (c :: cs) k).trans (if_neg hc).symm

/-- The row with its cursor place, place by place (R126, R127). -/
theorem getElem?_rowImage (blinkOn : Bool) (row : List Cell) (p k : Nat) :
    (rowImage blinkOn row p)[k]? = rowShown blinkOn row p (cursorIndex row p) k := by
  unfold rowImage cursorIndex
  rw [getElem?_cursorTail, List.takeWhile_append_dropWhile]

/-! ### The text window and the status field (R128 to R130) -/

theorem length_windowCells (row : List ImageCell) (w : Nat) : (windowCells row w).length = 32 := by
  have htake : ((row.drop w).take 32).length ≤ 32 := List.length_take_le 32 _
  rw [windowCells, List.length_append, List.length_replicate]
  omega

/-- The window shows the row from its start on, and blanks past the row's end (R128). -/
theorem getElem?_windowCells (row : List ImageCell) (w k : Nat) (hk : k < 32) :
    (windowCells row w)[k]? = some ((row[w + k]?).getD blankImage) := by
  have hlen : ((row.drop w).take 32).length = min 32 (row.length - w) := by rw [List.length_take, List.length_drop]
  unfold windowCells
  by_cases hin : w + k < row.length
  · rw [List.getElem?_append_left (by omega), List.getElem?_take_of_lt hk, List.getElem?_drop,
      List.getElem?_eq_getElem hin]
    rfl
  · rw [List.getElem?_append_right (by omega), List.getElem?_replicate, if_pos (by omega),
      List.getElem?_eq_none (Nat.le_of_not_lt hin)]
    rfl

/-- The text cells are 32 as long as a shown message has 32 codes (R128, R130). -/
theorem length_textCells (s : State) (h : ∀ codes, s.dsp.message = some codes → codes.length = 32) :
    (textCells s).length = 32 := by
  unfold textCells
  split
  next codes hm => simpa using h codes hm
  next => exact length_windowCells _ _

/-- Cells 0 to 31 of an image of its sources are the text cells. -/
theorem image_text (s : State) (hs : ImageCurrent s) (k : Nat) (hk : k < (textCells s).length) :
    s.dsp.image[k]? = (textCells s)[k]? := by
  rw [hs, imageOf, List.getElem?_append_left hk]

/-- The codes of the status field are those of R129 and R40. -/
theorem statusShown_of_textCells (s : State) (hs : ImageCurrent s) (h : (textCells s).length = 32) : StatusShown s := by
  refine ⟨column s / 100 % 10, column s / 10 % 10, column s % 10, alertMark s, by omega, by omega, by omega,
    ?_, ?_, ?_, ?_, ?_⟩
  · change column s % 1000 = _
    omega
  · intro hn
    exact if_pos hn
  · intro hn hm
    exact (if_neg hn).trans (if_pos (Option.isSome_iff_ne_none.mpr hm))
  · intro hn hm
    exact (if_neg hn).trans (if_neg (by simp [hm]))
  · rw [hs, imageOf, List.drop_left' h]
    rfl

/-- An image of its sources shows what R125 to R130 say. -/
theorem imageShows_of_current (s : State) (hs : ImageCurrent s) : ImageShows s := by
  have hrow := rowOf_visualRow s.lst.cells
  refine ⟨visualRow s.lst.cells, cursorIndex (visualRow s.lst.cells) s.lst.step, hrow,
    cursorAt_cursorIndex _ _ hrow.1, fun hnone => ?_, fun codes hsome hlen => ?_, id⟩
  · have htext : textCells s =
        windowCells (rowImage s.dsp.blinkOn (visualRow s.lst.cells) s.lst.step) s.dsp.windowStart := by
      rw [textCells, hnone]
    have hlen : (textCells s).length = 32 := htext ▸ length_windowCells _ _
    refine ⟨statusShown_of_textCells s hs hlen, fun k hk => ?_⟩
    rw [image_text s hs k (hlen ▸ hk), htext, getElem?_windowCells _ _ _ hk, getElem?_rowImage]
    rfl
  · have htext : textCells s = codes.map (fun b => { code := b, attr := .normal }) := by rw [textCells, hsome]
    have hlen' : (textCells s).length = 32 := by simp [htext, hlen]
    refine ⟨statusShown_of_textCells s hs hlen', fun k c hc => ?_⟩
    have hk : k < (textCells s).length := by
      obtain ⟨hk, -⟩ := List.getElem?_eq_some_iff.mp hc
      omega
    rw [image_text s hs k hk, htext, List.getElem?_map, hc]
    rfl

/-! ### What a step does to the image (R124) -/

/-- DSP and the sources of its image stand as they were. -/
def SourcesKept (s t : State) : Prop :=
  t.lst = s.lst ∧ t.esc = s.esc ∧ t.pmc = s.pmc ∧ t.spc = s.spc ∧ t.dsp = s.dsp

theorem SourcesKept.refl (s : State) : SourcesKept s s := ⟨rfl, rfl, rfl, rfl, rfl⟩

/-- The image depends on its sources only. -/
theorem imageOf_of_sourcesKept {s t : State} (h : SourcesKept s t) : imageOf t = imageOf s := by
  obtain ⟨hlst, hesc, hpmc, hspc, hdsp⟩ := h
  simp only [imageOf, textCells, statusCodes, column, alertMark, hlst, hesc, hpmc, hspc, hdsp]

theorem imageCurrent_of_sourcesKept {s t : State} (h : SourcesKept s t) (hs : ImageCurrent s) : ImageCurrent t := by
  obtain ⟨-, -, -, -, hdsp⟩ := id h
  rw [ImageCurrent, hdsp, imageOf_of_sourcesKept h]
  exact hs

/-- A step leaves the image of its sources, or leaves DSP and the sources as they were. -/
def Redrawn (s t : State) : Prop := ImageCurrent t ∨ SourcesKept s t

theorem Redrawn.current {s t : State} (h : Redrawn s t) (hs : ImageCurrent s) : ImageCurrent t :=
  h.elim id (fun hk => imageCurrent_of_sourcesKept hk hs)

theorem transition_redrawn {s t : State} {ready : Bool} {after : State → State}
    (h : transition s ready after = .next t) : Redrawn s t := by
  rcases transition_cases s t ready after h with rfl | ⟨-, -, rfl⟩
  · exact .inr (.refl t)
  · exact .inl (refresh_image (after s))

theorem converting_redrawn {k : KeyKind} {s t : State} {w : Bool} {f : Action → State → State}
    (h : converting k s w f = .next t) : Redrawn s t := by
  cases htaq : s.taq with
  | nil =>
    rw [converting_empty k s w f htaq] at h
    injection h with h
    exact .inr (h ▸ .refl s)
  | cons a rest => exact transition_redrawn (converting_head k s w f a rest htaq ▸ h)

theorem continuing_redrawn {s t : State} {r : Bool} {f : Action → State → State}
    (h : continuing s r f = .next t) : Redrawn s t := by
  cases htaq : s.taq with
  | nil =>
    rw [continuing_empty s r f htaq] at h
    injection h with h
    exact .inr (h ▸ .refl s)
  | cons a rest => exact transition_redrawn (continuing_head s r f a rest htaq ▸ h)

/-- The image of the reset values is the one R136 spells out. -/
theorem imageCurrent_reset : ImageCurrent State.reset := by
  unfold ImageCurrent
  decide +kernel

theorem imageCurrent_blocksReset (s : State) : ImageCurrent (blocksReset s) :=
  imageCurrent_of_sourcesKept ⟨rfl, rfl, rfl, rfl, rfl⟩ imageCurrent_reset

theorem imageCurrent_assertReset (s : State) : ImageCurrent (assertReset s) :=
  imageCurrent_of_sourcesKept ⟨rfl, rfl, rfl, rfl, rfl⟩ imageCurrent_reset

theorem noteTouched_sourcesKept (a w : Nat) (s : State) : SourcesKept s (noteTouched a w s) := by
  unfold noteTouched
  split <;> exact .refl s

/-- A host access reaches neither DSP nor a source of its image. -/
theorem hostAccess_sourcesKept (x : RamAccess) (s : State) : SourcesKept s (hostAccess x s) := by
  cases x with
  | readByte a => exact .refl s
  | readWord a => exact .refl s
  | writeByte a v => exact noteTouched_sourcesKept a.toNat 1 (writeByte a.toNat v s)
  | writeWord a v => exact noteTouched_sourcesKept a.toNat 2 (writeHalf a.toNat v s)

theorem execHostRamAccess_redrawn {x : HostAccess} {s t : State} (h : execHostRamAccess x s = .next t) : Redrawn s t := by
  unfold execHostRamAccess at h
  split at h
  · cases h
  · split at h
    · cases h
    · cases x with
      | now a =>
        injection h with h
        exact .inr (h ▸ hostAccess_sourcesKept a s)
      | during turn a =>
        injection h with h
        exact .inr (h ▸ .refl s)

/-- Every command leaves the image of its sources, or leaves DSP and the sources as they were: nearly all have the form
transition, with or without an action at the head of TAQ. -/
theorem exec_redrawn {i : Instr} {s t : State} (h : exec i s = .next t) : Redrawn s t := by
  unfold exec at h
  cases i with
  | resetAssert =>
    injection h with h
    exact .inl (h ▸ imageCurrent_assertReset s)
  | resetRelease =>
    change execResetRelease s = .next t at h
    unfold execResetRelease at h
    split at h <;> injection h with h
    · exact .inl (h ▸ imageCurrent_blocksReset s)
    · exact .inr (h ▸ .refl s)
  | hostRamAccess x => exact execHostRamAccess_redrawn h
  | convertChar | convertTab | convertBackspace | convertForward | convertRelocate | convertReturn | convertIndex | convertMode
  | convertMargin | convertTabset | convertWheel | convertPause | convertMark | convertShow | convertAddWord
  | convertErase _ => exact converting_redrawn h
  | spellHoldTest | lineReleaseCell | lineClose | eraseStep => exact continuing_redrawn h
  | softReset | runStart | settingsClampedPost | runStop | wake | flush | quietSet | quietClear | rehome | eventWrite _
  | eventEnableWrite _ | anchorPageWrite _ | keyRecordFetch | recordTake | textByteRead | heldFullResume | linkReread
  | walkStart | listPoll | operationTakeUp _ | carriageArrival | wheelSeekArrival | wheelSlip _ _ | settleExpiry
  | strikeSpacingExpiry | hammerFire | recoveringEnd | wheelIndexFound _ | wheelRehomeFail _ | carriageHomeFound
  | carriageRehomeFail | firstHomingEnd | coverSample _ _ _ | feedComplete | pauseExpiry | motorRestExpiry | wakeFromRest
  | idleFollow _ | checkBegin | verdictDelivery | addRequestBegin | addRequestEnd | noticeWrite | noticeTakenReread
  | mirrorTick | blinkPhaseChange | displayTransferBegin | displayTransferComplete | messageTimerExpiry
  | toneIntervalExpiry | parkMoveEnd => exact transition_redrawn h

/-- The passing of time changes TMB and the queue only. -/
theorem tick_sourcesKept (s : State) : SourcesKept s (tick s) := by
  unfold tick
  split
  · exact .refl s
  · split <;> exact .refl s

/-- Every step keeps the image that of its sources (R124). -/
theorem step_keeps_imageCurrent {s t : State} (hs : ImageCurrent s) (h : step s = .next t) : ImageCurrent t := by
  unfold step at h
  split at h
  · injection h with h
    exact h ▸ imageCurrent_of_sourcesKept (tick_sourcesKept s) hs
  · exact (exec_redrawn h).current hs

/-- Settles O6: what the image shows comes from the lists behind it, and a step either redraws it or leaves its sources. -/
theorem imageCurrentKept : Obligations.ImageCurrentKept := by
  unfold Obligations.ImageCurrentKept
  exact fun s hs => ⟨imageShows_of_current s hs, fun _ h => step_keeps_imageCurrent hs h⟩

end Sys2Proof.Machine.DisplayImage
end

section
/-! PROOFS. The Settings Record (R25, R143): what its fields are brought to, which notices are due and how they are posted, how
it is read and takes effect, and a later RUN_START that re-reads it. -/
namespace Sys2Proof.Machine.SettingsRecord

/-! ### What each field is brought to (R25, R143) -/

theorem clamp_eq_broughtInto {lo hi : Nat} (h : lo ≤ hi) (n : Nat) : clamp lo hi n = broughtInto lo hi n := by
  unfold clamp broughtInto
  split
  · omega
  · split <;> omega

theorem min_eq_broughtInto (hi n : Nat) : min hi n = broughtInto 0 hi n := by
  unfold broughtInto
  rw [if_neg (Nat.not_lt_zero n)]
  split <;> omega

/-- RM lies at least 240 steps behind LM as just brought into range (R25). -/
theorem clampSettings_rightMargin (r : RawSettings) :
    (clampSettings r).rightMargin = broughtInto (broughtInto 0 3119 r.leftMargin + 240) 3359 r.rightMargin := by
  rw [← min_eq_broughtInto, ← clamp_eq_broughtInto (by omega)]
  change min 3359 (max (min 3119 r.leftMargin + 240) r.rightMargin) = max _ (min 3359 r.rightMargin)
  omega

/-! ### The notices due (R143) -/

/-- A notice is due of an index just where the field read and the value used differ. -/
theorem mem_clampsFrom_iff (raws useds : List Nat) (first i : Nat) (v : Half) :
    Clamp.mk i v ∈ clampsFrom first raws useds ↔ ∃ raw used, first ≤ i ∧ raws[i - first]? = some raw ∧
      useds[i - first]? = some used ∧ raw ≠ used ∧ v = half used := by
  induction raws generalizing useds first with
  | nil => simp [clampsFrom]
  | cons raw raws ih =>
    cases useds with
    | nil => simp [clampsFrom]
    | cons used useds =>
      have htail : Clamp.mk i v ∈ clampsFrom (first + 1) raws useds ↔ ∃ x y, first + 1 ≤ i ∧
          (raw :: raws)[i - first]? = some x ∧ (used :: useds)[i - first]? = some y ∧ x ≠ y ∧ v = half y := by
        rw [ih]
        refine exists_congr fun x => exists_congr fun y => and_congr_right fun hi => ?_
        have hsub : i - first = i - (first + 1) + 1 := by omega
        rw [hsub, List.getElem?_cons_succ, List.getElem?_cons_succ]
      have hstep : Clamp.mk i v ∈ clampsFrom first (raw :: raws) (used :: useds) ↔
          (i = first ∧ raw ≠ used ∧ v = half used) ∨ Clamp.mk i v ∈ clampsFrom (first + 1) raws useds := by
        rw [clampsFrom]
        split
        next heq => simp [heq]
        next hne => simp [hne]
      rw [hstep, htail]
      constructor
      · rintro (⟨rfl, hne, hv⟩ | ⟨x, y, hi, hrest⟩)
        · exact ⟨raw, used, Nat.le_refl _, by simp, by simp, hne, hv⟩
        · exact ⟨x, y, by omega, hrest⟩
      · rintro ⟨x, y, hi, hx, hy, hne, hv⟩
        rcases Nat.eq_or_lt_of_le hi with rfl | hlt
        · obtain rfl : raw = x := by simpa using hx
          obtain rfl : used = y := by simpa using hy
          exact .inl ⟨rfl, hne, hv⟩
        · exact .inr ⟨x, y, hlt, hx, hy, hne, hv⟩

/-- The notices come in ascending index order. -/
theorem clampsFrom_ascends (raws useds : List Nat) (first : Nat) :
    ((clampsFrom first raws useds).map Clamp.index).Pairwise (· < ·) := by
  induction raws generalizing useds first with
  | nil => simp [clampsFrom]
  | cons raw raws ih =>
    cases useds with
    | nil => simp [clampsFrom]
    | cons used useds =>
      rw [clampsFrom]
      split
      next => exact ih useds (first + 1)
      next =>
        refine List.pairwise_cons.mpr ⟨fun j hj => ?_, ih useds (first + 1)⟩
        obtain ⟨⟨i, v⟩, hc, rfl⟩ := List.mem_map.mp hj
        obtain ⟨-, -, hi, -⟩ := (mem_clampsFrom_iff raws useds (first + 1) i v).mp hc
        exact hi

/-! ### SETTINGS_CLAMPED_POST (R143, R150) -/

theorem stalled_eq_false_iff (s : State) : stalled s = false ↔ NoStall s := by
  simp [stalled, NoStall]

/-- With a notice due and no stall the first is posted. -/
theorem exec_settingsClampedPost {s : State} {c : Clamp} {cs : List Clamp} (hp : Powered s)
    (hdue : s.klr.clampDue = c :: cs) (hn : NoStall s) :
    exec .settingsClampedPost s = .next (refresh (post (clampNotice c s) (s.withKlr { s.klr with clampDue := cs }))) := by
  have hready : (!s.klr.clampDue.isEmpty && !stalled s) = true := by simp [hdue, (stalled_eq_false_iff s).mpr hn]
  have hpost : postClamp s = post (clampNotice c s) (s.withKlr { s.klr with clampDue := cs }) := by rw [postClamp, hdue]
  rw [← hpost]
  exact transition_ready s _ _ hp hready

/-- In a stall the notices due wait. -/
theorem exec_settingsClampedPost_stalled {s : State} (hn : ¬ NoStall s) : exec .settingsClampedPost s = .next s := by
  have hstall : stalled s = true := by
    rw [← stalled_eq_false_iff] at hn
    exact (Bool.not_eq_false (stalled s)).mp hn
  exact transition_not_ready s _ _ (by simp [hstall])

/-- A posted notice changes the list of those due and the holding queue only. -/
theorem postClamp_onlyChanges (n : Notice) (k : Klr) (s : State) :
    OnlyChanges [.klr, .ntw] s (refresh (post n (s.withKlr k))) := by
  intro b hb
  cases b with
  | klr | ntw => exact absurd (by decide) hb
  | ram => exact fun _ => rfl
  | hpa | taq | lst | esc | settings | pmc | cmm | spc | dsp | tmb | pending => rfl

/-- Settles O24: the table field by field, the notices due by recursion over the two lists of fields, and the post. -/
theorem settingsAreClampedAndReported : Obligations.SettingsAreClampedAndReported := by
  unfold Obligations.SettingsAreClampedAndReported
  refine ⟨fun r => ?_, fun r => ⟨clampsFrom_ascends _ _ 1, fun i v => mem_clampsFrom_iff _ _ 1 i v⟩,
    fun s c cs hp hdue => ?_⟩
  · have hpitch : (clampSettings r).pitch = if 4 < r.pitch then 0 else r.pitch := by
      change (if r.pitch ≤ 4 then r.pitch else 0) = _
      split <;> split <;> omega
    have hlink : (clampSettings r).linkMode = if 1 < r.linkMode then 0 else r.linkMode := by
      change (if r.linkMode ≤ 1 then r.linkMode else 0) = _
      split <;> split <;> omega
    exact ⟨clamp_eq_broughtInto (by decide) _, hpitch, clamp_eq_broughtInto (by decide) _,
      clamp_eq_broughtInto (by decide) _, min_eq_broughtInto _ _, clampSettings_rightMargin r, min_eq_broughtInto _ _,
      min_eq_broughtInto _ _, clamp_eq_broughtInto (by decide) _, clamp_eq_broughtInto (by decide) _,
      clamp_eq_broughtInto (by decide) _, clamp_eq_broughtInto (by decide) _, min_eq_broughtInto _ _, rfl, rfl, hlink, rfl⟩
  · exact ⟨fun hn => ⟨_, exec_settingsClampedPost hp hdue hn, rfl, rfl, postClamp_onlyChanges _ _ s⟩,
      exec_settingsClampedPost_stalled⟩

/-! ### The record as it is read (R143, section 8.5) -/

/-- A 16-bit field is its two bytes, the low one first. -/
theorem toNat_ramHalf (s : State) (a : Nat) : (ramHalf s a).toNat = (ramByte s a).toNat + 256 * (ramByte s (a + 1)).toNat := by
  have hlow : (ramByte s a).toNat < 2 ^ 8 := (ramByte s a).isLt
  change ((ramByte s (a + 1)) ++ (ramByte s a)).toNat = _
  rw [BitVec.toNat_append, ← Nat.shiftLeft_add_eq_or_of_lt hlow, Nat.shiftLeft_eq]
  omega

/-- Each field is read from its place in the record. -/
theorem settingsRecordRead_readSettings (s : State) (a : Nat) : SettingsRecordRead s a (readSettings s a) := by
  unfold SettingsRecordRead settingsByIndex readSettings
  simp only [toNat_ramHalf]
  exact ⟨rfl, rfl, rfl, rfl, rfl, rfl, rfl, rfl, rfl, rfl, rfl, rfl, rfl, rfl, rfl, rfl, rfl, rfl⟩

/-- The reading depends on the RAM only. -/
theorem readSettings_of_ram {s t : State} (h : t.ram = s.ram) (a : Nat) : readSettings t a = readSettings s a := by
  simp only [readSettings, ramHalf, ramByte, h]

/-! ### A 16-bit field written (R141) -/

/-- The part's write of a 16-bit field stores its two bytes, the low one first, and no other. -/
theorem storedAt_writeHalf {a : Nat} {v : Half} {s t : State} (hs : MemoryCanonical s) (ht : t.ram = (writeHalf a v s).ram) :
    StoredAt a (halfBytes v) s t := by
  have hread : ∀ b, ramByte t b = ramByte (writeHalf a v s) b := fun b => by rw [ramByte, ramByte, ht]
  have hapart : a % Config.ramSize ≠ (a + 1) % Config.ramSize := by
    unfold Config.ramSize
    omega
  have hlow : ramByte t a = lowByte v := by
    rw [hread, writeHalf, ramByte_writeByte_other _ _ _ _ hapart, ramByte_writeByte_same _ _ _ hs, lowByte]
  have hhigh : ramByte t (a + 1) = highByte v := by
    rw [hread, writeHalf, ramByte_writeByte_same _ _ _ (writeByte_wf _ _ _ hs), highByte]
  refine ⟨fun i w hw => ?_, fun b hb => ?_⟩
  · match i with
    | 0 => exact hlow.trans (Option.some.inj hw)
    | 1 => exact hhigh.trans (Option.some.inj hw)
    | i + 2 => cases hw
  · rw [ht]
    exact (Memory.read_write_other _ _ _ _ (hb 1 Nat.one_lt_two)).trans (Memory.read_write_other _ _ _ _ (hb 0 Nat.two_pos))

/-! ### The settings take effect (R25, R143, R136, R23) -/

/-- The settings reach the print point, ESC, the settings that no block of its own holds, and the link mode. -/
theorem applySettings_onlyChanges (r : RawSettings) (s : State) :
    OnlyChanges [.lst, .esc, .settings, .dsp] s (applySettings r s) := by
  intro b hb
  unfold applySettings
  cases b with
  | lst | esc | settings | dsp => exact absurd (by decide) hb
  | ram => dsimp only; split <;> exact fun _ => rfl
  | hpa | klr | taq | pmc | cmm | spc | ntw | tmb | pending => dsimp only; split <;> rfl

theorem applySettings_ram (r : RawSettings) (s : State) : (applySettings r s).ram = s.ram := by
  unfold applySettings
  dsimp only
  split <;> rfl

/-- Of LST the settings reach the print point's step only. -/
theorem applySettings_lst (r : RawSettings) (s : State) :
    (applySettings r s).lst = { s.lst with step := (applySettings r s).lst.step } := by
  unfold applySettings
  dsimp only
  split <;> rfl

/-- The settings put in force are in force, with the point at (LM, 0) when LST holds no cells. -/
theorem settingsInForce_applySettings (r : RawSettings) (s : State) : SettingsInForce r s (applySettings r s) := by
  unfold SettingsInForce applySettings
  cases hcells : s.lst.cells with
  | nil => exact ⟨rfl, rfl, rfl, rfl⟩
  | cons c cs => exact ⟨rfl, rfl, rfl, rfl⟩

theorem refresh_dsp (s : State) : (refresh s).dsp = { s.dsp with
    image := (refresh s).dsp.image, windowStart := (refresh s).dsp.windowStart } := rfl

/-- They stay in force over a change of KLR and DSP's recompute. -/
theorem settingsInForce_refresh {r : RawSettings} {s t : State} (h : SettingsInForce r s t) (k : Klr) :
    SettingsInForce r s (refresh (t.withKlr k)) := by
  obtain ⟨hesc, hsettings, hdsp, hstep⟩ := h
  refine ⟨hesc, hsettings, ?_, hstep⟩
  exact (refresh_dsp _).trans (by rw [withKlr_dsp, hdsp])

/-! ### RUN_START after an earlier RUN (R141, R149, R153) -/

/-- The state a later RUN reads the settings in: RUN is 1, SettingsPtr is read, KeyHead after a stop in BAD, and NTW has
written NoticeProduced. -/
def rereadState (s : State) : State :=
  announce (rereadAnchor ((setRun true s).withKlr
    { s.klr with pendingStop := false, walkDue := decide (s.klr.state = .stopped) }))

theorem runStart_of_ran {s : State} (h : s.klr.ran = true) : runStart s = settingsRead (rereadState s) := by
  have hreads : runReads s = settingsRead (rereadState s) := if_pos h
  rw [runStart, if_pos h, hreads]

theorem exec_runStart_later {s : State} (hp : Powered s) (hr : runOn s = false) (h : s.klr.ran = true) :
    exec .runStart s = .next (refresh (settingsRead (rereadState s))) := by
  rw [← runStart_of_ran h]
  exact transition_ready s _ _ hp (by simp [hr])

theorem exec_runStart_running {s : State} (hr : runOn s = true) : exec .runStart s = .next s :=
  transition_not_ready s _ _ (by simp [hr])

theorem settingsRead_ram (s : State) : (settingsRead s).ram = s.ram := applySettings_ram _ s

/-- The Settings read changes KLR and what the settings reach. -/
theorem settingsRead_onlyChanges (s : State) : OnlyChanges [.klr, .lst, .esc, .settings, .dsp] s (settingsRead s) := by
  intro b hb
  have hkept := applySettings_onlyChanges (clampSettings (readSettings s (s.klr.settingsPtr.getD 0).toNat)) s b
    (fun h => hb (List.mem_cons_of_mem _ h))
  cases b with
  | klr => exact absurd (by decide) hb
  | hpa | taq | lst | esc | settings | pmc | cmm | spc | dsp | ntw | tmb | ram | pending => exact hkept

/-- The Settings read adds to KLR the notices due of its own, behind those due from an earlier read. -/
theorem settingsRead_klr (s : State) : (settingsRead s).klr = { s.klr with
    clampDue := s.klr.clampDue ++ clampsOf (readSettings s (s.klr.settingsPtr.getD 0).toNat) } := by
  have hklr : (applySettings (clampSettings (readSettings s (s.klr.settingsPtr.getD 0).toNat)) s).klr = s.klr :=
    applySettings_onlyChanges _ s .klr (by decide)
  rw [settingsRead, withKlr_klr, hklr]

/-- The frame of a later RUN. -/
theorem laterRun_onlyChanges (s : State) :
    OnlyChanges [.hpa, .klr, .lst, .esc, .settings, .dsp, .ntw, .ram] s (refresh (settingsRead (rereadState s))) := by
  intro b hb
  have hsub : [Block.klr, .lst, .esc, .settings, .dsp] ⊆ [.hpa, .klr, .lst, .esc, .settings, .dsp, .ntw, .ram] := by decide
  have hkept := settingsRead_onlyChanges (rereadState s) b (fun h => hb (hsub h))
  cases b with
  | hpa | klr | lst | esc | settings | dsp | ntw | ram => exact absurd (by decide) hb
  | taq | pmc | cmm | spc | tmb | pending => exact hkept

/-- Settles O23: the reads before the Settings read, then what the settings change, block by block. -/
theorem laterRunRereadsTheSettings : Obligations.LaterRunRereadsTheSettings := by
  unfold Obligations.LaterRunRereadsTheSettings
  refine fun s hm hp => ⟨exec_runStart_running, fun hr hran => ⟨_, exec_runStart_later hp hr hran, ?_⟩⟩
  have hkept := settingsRead_onlyChanges (rereadState s)
  have hraw := readSettings_of_ram (t := refresh (settingsRead (rereadState s))) (settingsRead_ram (rereadState s))
    (ramHalf s (anchorBase s + 2)).toNat
  refine ⟨settingsRecordRead_readSettings _ _, hkept .hpa (by decide), ?_, hkept .ntw (by decide),
    storedAt_writeHalf hm (settingsRead_ram (rereadState s)), ?_, applySettings_lst _ (rereadState s), laterRun_onlyChanges s⟩
  · rw [hraw]
    exact settingsRead_klr (rereadState s)
  · rw [hraw]
    exact settingsInForce_refresh (settingsInForce_applySettings _ (rereadState s)) _

end Sys2Proof.Machine.SettingsRecord
end
